-- ==== Sys2Proof/Word.lean ====
section
/-! DEFINITION. The byte, and the two builders of fixed-length rows of values that the rest of the model uses.
Everything the spec calls a `uN` or an `iN` is a bit vector of that width (00_scope.md R8). -/

namespace Sys2Proof

/-- `u8`: one byte (R8). -/
abbrev Byte := BitVec 8

/-- The row of `n` values `f 0, f 1, …, f (n − 1)`. -/
def vecOf {α : Type} (n : Nat) (f : Nat → α) : Vector α n :=
  ⟨((List.range n).map f).toArray, by simp⟩

/-- `f` applied to every element of a row. -/
def vecMap {α β : Type} {n : Nat} (f : α → β) (v : Vector α n) : Vector β n :=
  ⟨(v.toList.map f).toArray, by simp⟩

end Sys2Proof
end

