-- ==== Sys2Proof/Config.lean ====
section
/-! DEFINITION. The parameters of the engine (00_scope.md R6), the constants its source fixes, and its two free values. -/

namespace Sys2Proof

/-- The parameters D0 gives no number for (R6): the operations of the machine take them as an argument. -/
structure Params where
  /-- `DEST_FC`, the flight-controller destination byte (R63). -/
  destFc : Byte
  /-- `DEST_TX`, the radio-transmitter destination byte (R63). -/
  destTx : Byte
  /-- `TYPE_GPS` (R65). -/
  typeGps : Byte
  /-- `TYPE_BATTERY` (R65). -/
  typeBattery : Byte
  /-- `TYPE_RPM` (R65). -/
  typeRpm : Byte
  /-- `TYPE_TEMP` (R65). -/
  typeTemp : Byte
  /-- `TYPE_LINK` (R65). -/
  typeLink : Byte
  /-- `TYPE_CHANNELS` (R65). -/
  typeChannels : Byte
  /-- `TICK_MS`, the milliseconds one `TICK` stands for (R218). -/
  tickMs : Nat
  deriving DecidableEq, Repr

namespace Config

/-- `MIN_LEN`: the smallest length byte the receiver accepts (R6, R103). -/
abbrev minLen : Nat := 2

/-- `MAX_LEN`: the largest length byte the receiver accepts (R6, R103). -/
abbrev maxLen : Nat := 62

/-- `MAX_FRAME`: the bytes of the longest frame (R61). -/
abbrev maxFrame : Nat := maxLen + 2

/-- `MAX_PAYLOAD`: the bytes of the longest payload (R61). -/
abbrev maxPayload : Nat := maxLen - 2

/-- `N_CH`: the number of channels (R6). -/
abbrev nCh : Nat := 16

/-- `CH_BITS`: the width of a channel value (R6). -/
abbrev chBits : Nat := 11

/-- `RPM_MAX`: the most values an RPM payload carries (R6, R146). -/
abbrev rpmMax : Nat := 19

/-- `TEMP_MAX`: the most values a temperature payload carries (R6, R148). -/
abbrev tempMax : Nat := 20

/-- `FS_TIMEOUT_MS`: the failsafe window in milliseconds (R6, R216). -/
abbrev fsTimeoutMs : Nat := 500

/-- `POLY`: the protocol's polynomial (R6, R90). -/
abbrev protocolPoly : Byte := 0xD5

/-- The parameter values this model runs with: the defaults of R6.
PRESUMED (log 1): the destination and type bytes are marked in the spec as general knowledge, not its source's;
`TICK_MS` is the spec's own default (D21). -/
def params : Params where
  destFc := 0xC8
  destTx := 0xEA
  typeGps := 0x02
  typeBattery := 0x08
  typeRpm := 0x0C
  typeTemp := 0x0D
  typeLink := 0x14
  typeChannels := 0x16
  tickMs := 1

/-- FREE VALUE (log 4): the 32 bits from which `BE_PUTS` takes its result when its operand lies outside the `W`-bit
range, which R137 puts outside the function's domain. The first argument is `W`, the second the operand. -/
opaque bePutsOutOfDomain : Nat → Int → BitVec 32

/-- FREE VALUE (log 10): the 32 bits from which a marshaler read takes its result when its field reaches outside the byte
sequence it is given, where R130 to R132 state none. The arguments are `W`, the sequence and the offset: the marshaler's
operations are pure functions. -/
opaque beGetOutside : Nat → List Byte → Nat → BitVec 32

end Config

namespace Params

/-- The six type codes of R65. -/
def types (P : Params) : List Byte :=
  [P.typeGps, P.typeBattery, P.typeRpm, P.typeTemp, P.typeLink, P.typeChannels]

/-- `FS_TIMEOUT_TICKS` = `FS_TIMEOUT_MS` / `TICK_MS` (R6, R218). -/
def timeoutTicks (P : Params) : Nat := Config.fsTimeoutMs / P.tickMs

/-- What R6 requires of the parameters: the two destinations differ and the six type codes are pairwise distinct.
The bound on `TICK_MS` is the model's own (log 2): at least one `TICK` must fit the window. -/
def ok (P : Params) : Bool :=
  P.destFc != P.destTx && decide P.types.Nodup && decide (1 ≤ P.tickMs ∧ P.tickMs ≤ Config.fsTimeoutMs)

end Params

end Sys2Proof
end

