-- ==== Sys2Proof/Machine/Memory.lean ====
section
/-! DEFINITION. A storage array of the engine (20_memory.md R40): its written elements as index and byte pairs in one
canonical form, indices strictly rising. An element that nothing has written has no value, and reading it is a fault
(00_scope.md R8, 70_reset_and_hazards.md R231), so no listed element equals what an unlisted one reads as. -/

namespace Sys2Proof.Machine

/-- The written elements of one storage array. -/
abbrev Memory := List Host.Cell

/-- The canonical form: indices strictly rising. -/
def Memory.wf : Memory → Bool
  | [] => true
  | [_] => true
  | a :: b :: r => decide (a.1 < b.1) && Memory.wf (b :: r)

/-- The element at index `i`, if anything has written it. -/
def Memory.read : Memory → Nat → Option Byte
  | [], _ => none
  | (j, v) :: r, i => if i = j then some v else Memory.read r i

/-- `A[i] <- v`, keeping the canonical form. -/
def Memory.write : Memory → Nat → Byte → Memory
  | [], i, v => [(i, v)]
  | (j, w) :: r, i, v =>
    if i < j then (i, v) :: (j, w) :: r
    else if i = j then (i, v) :: r
    else (j, w) :: Memory.write r i v

/-- The elements `A[i], A[i+1], …` written one after another. -/
def Memory.writeFrom (m : Memory) (i : Nat) : List Byte → Memory
  | [] => m
  | v :: vs => Memory.writeFrom (m.write i v) (i + 1) vs

/-- The elements `i, i+1, …` listed with the given bytes. -/
def Memory.cellsFrom (i : Nat) : List Byte → Memory
  | [] => []
  | v :: vs => (i, v) :: Memory.cellsFrom (i + 1) vs

/-- The array whose elements 0, 1, … are the given bytes. -/
def Memory.ofBytes (bs : List Byte) : Memory := Memory.cellsFrom 0 bs

/-- Every written element lies below `n`. -/
def Memory.below (m : Memory) (n : Nat) : Bool :=
  m.all fun c => decide (c.1 < n)

/-- The three storage arrays of R40. -/
inductive ArrayName where
  | table
  | rxbuf
  | txbuf
  deriving DecidableEq, Repr

/-- The number of elements of a storage array (R40). -/
def arraySize : ArrayName → Nat
  | .table => 256
  | .rxbuf => Config.maxFrame
  | .txbuf => Config.maxFrame

end Sys2Proof.Machine
end

