-- ==== Sys2Proof/Machine/Crc.lean ====
section
/-! DEFINITION. The CRC-8 generator (40_crc8.md R90, R91) and the bitwise form of the checksum (R93 (a)). -/

namespace Sys2Proof.Machine

/-- `ROUND` (R91): shift left, XOR the polynomial when the top bit was set before the shift. -/
def crcRound (poly c : Byte) : Byte :=
  if c.getLsbD 7 then (c <<< 1) ^^^ poly else c <<< 1

/-- One table entry (R90): eight rounds from the index. -/
def crcEntry (poly c : Byte) : Byte :=
  Nat.repeat (crcRound poly) 8 c

/-- `CRC_BUILD` (R90): the 256 entries in order. -/
def crcBuild (poly : Byte) : Vector Byte 256 :=
  vecOf 256 fun i => crcEntry poly (BitVec.ofNat 8 i)

/-- The array `TABLE` after `CRC_BUILD` has been stored into it (R25). -/
def crcTable (poly : Byte) : Memory :=
  Memory.ofBytes (crcBuild poly).toList

/-- The checksum without a table (R93 (a)): XOR the byte in, then eight rounds. -/
def crcBitwise (poly : Byte) (bytes : List Byte) : Byte :=
  bytes.foldl (fun c b => crcEntry poly (c ^^^ b)) 0

end Sys2Proof.Machine
end

