-- ==== Sys2Proof/Syntax.lean ====
section
/-! DEFINITION. The operations of the engine as syntax: one constructor of `Instr` for every row of
spec/opcode_table.json (seven frame types, nine host operations, thirty-four unit operations), the values they carry,
and the form in which the environment presents them. -/

namespace Sys2Proof

/-- The host's `destination` operand: one of two names, no other can be presented (30_encoding.md R78, R185). -/
inductive Dest where
  | fc
  | tx
  deriving DecidableEq, Repr

/-- The three field widths of `BE_GETS` and `BE_PUTS` (43_be_marshaler.md R136, R137). -/
inductive Width where
  | w16
  | w24
  | w32
  deriving DecidableEq, Repr

/-- `BatteryTelemetry` (R67, R78). -/
structure Battery where
  voltage : BitVec 16
  current : BitVec 16
  capacity : BitVec 24
  remaining : Byte
  deriving DecidableEq, Repr

/-- `GpsTelemetry` (R68, R78); the altitude is the wire value, its offset not removed. -/
structure Gps where
  latitude : BitVec 32
  longitude : BitVec 32
  groundspeed : BitVec 16
  heading : BitVec 16
  altitude : BitVec 16
  satellites : Byte
  deriving DecidableEq, Repr

/-- `RpmTelemetry`: the values are `i32` at the host and 24 bits on the wire (R69, R78). -/
structure Rpm where
  sourceId : Byte
  values : List (BitVec 32)
  deriving DecidableEq, Repr

/-- `TempTelemetry`: the values are `i16` (R70, R78). -/
structure Temp where
  sourceId : Byte
  values : List (BitVec 16)
  deriving DecidableEq, Repr

/-- One operation of the engine: one constructor for each row of spec/opcode_table.json. -/
inductive Instr where
  -- the frame types (R65): a frame of that type arriving on the serial side, its payload and its checksum byte
  | gps (dest : Dest) (payload : List Byte) (crc : Byte)
  | battery (dest : Dest) (payload : List Byte) (crc : Byte)
  | rpm (dest : Dest) (payload : List Byte) (crc : Byte)
  | temp (dest : Dest) (payload : List Byte) (crc : Byte)
  | link (dest : Dest) (payload : List Byte) (crc : Byte)
  | channels (dest : Dest) (payload : List Byte) (crc : Byte)
  | generic (dest : Dest) (type : Byte) (payload : List Byte) (crc : Byte)
  -- the host operations (R75)
  | init (poly : Byte) (crcVerify : Bool)
  | receiveChannels
  | getLinkStatistics
  | isFailsafe
  | sendBattery (dest : Dest) (value : Battery)
  | sendGps (dest : Dest) (value : Gps)
  | sendRpm (dest : Dest) (sourceId : Byte) (values : List (BitVec 32))
  | sendTemp (dest : Dest) (sourceId : Byte) (values : List (BitVec 16))
  | reservedOp (op : BitVec 6)
  -- the unit operations (R76)
  | crcBuild (poly : Byte)
  | crcSum (table : Vector Byte 256) (bytes : List Byte)
  | rxByte (b : Byte)
  | rxChunk (bytes : List Byte)
  | frameEncode (dest : Byte) (type : Byte) (payload : List Byte)
  | chUnpack (p : Vector Byte 22)
  | chPack (v : Vector (BitVec 16) 16)
  | beGet16 (b : List Byte) (o : Nat)
  | beGet24 (b : List Byte) (o : Nat)
  | beGet32 (b : List Byte) (o : Nat)
  | bePut16 (v : BitVec 16)
  | bePut24 (v : BitVec 24)
  | bePut32 (v : BitVec 32)
  | beGets (w : Width) (b : List Byte) (o : Nat)
  | bePuts (w : Width) (v : BitVec 32)
  | batteryUnpack (p : List Byte)
  | batteryPack (value : Battery)
  | gpsUnpack (p : List Byte)
  | gpsPack (value : Gps)
  | rpmUnpack (p : List Byte)
  | rpmPack (sourceId : Byte) (values : List (BitVec 32))
  | tempUnpack (p : List Byte)
  | tempPack (sourceId : Byte) (values : List (BitVec 16))
  | linkUnpack (p : List Byte)
  | linkPack (ls : Vector Byte 10)
  | dispatch (dest : Byte) (type : Byte) (payload : List Byte)
  | stUpdateCh (v : Vector (BitVec 11) 16)
  | stReadCh
  | stUpdateLs (ls : Vector Byte 10)
  | stReadLs
  | fsFeed
  | fsExpire
  | tick
  | fsQuery
  deriving DecidableEq, Repr

/-- Where an operation is presented: the host port (R185), the identifiers of the unit operations (R76), or a frame on
the serial side (R60). -/
inductive Port where
  | host
  | unit
  | serial
  deriving DecidableEq, Repr

/-- One entry of the total order of steps the environment chooses (20_memory.md R50): hardware reset (R230), a step of the
receive agent on the next byte that waits at the source (R100, R101), or an operation in its encoding. -/
inductive Entry where
  | reset
  | receive
  | request (port : Port) (bytes : List Byte)
  deriving DecidableEq, Repr

/-- Why the decoder rejects a row of bytes. -/
inductive DecodeError where
  /-- No byte at all. -/
  | empty
  /-- A host-port code over six bits (R75: the codes are 6-bit). -/
  | opTooWide (op : Byte)
  /-- A byte that is the identifier of no unit operation (R76). -/
  | notAUnit (op : Byte)
  /-- The operand bytes do not have the length of the operation's operands. -/
  | operandLength (op : Byte)
  /-- An operand byte names no value of its type (a destination, a bit, a width, an 11-bit value; R78). -/
  | operandValue (op : Byte)
  /-- A frame whose first byte is no destination value (R73 (a)). -/
  | notDest (b : Byte)
  /-- A frame whose length byte is outside 2..62 (R73 (b)). -/
  | badLength (b : Byte)
  /-- A row of bytes that is not `LEN + 2` bytes long (R61). -/
  | frameLength
  deriving DecidableEq, Repr

end Sys2Proof
end

