-- ==== Sys2Proof/Machine/Marshal.lean ====
section
/-! DEFINITION. The multi-byte big-endian field marshaler (43_be_marshaler.md R130 to R137): pure functions on byte
sequences, and the one accessor through which a payload byte is read. -/

namespace Sys2Proof.Machine

/-- `b[o]` of a payload. Every rule that reads a payload checks its length first (R57 (f)), and the unit operations below
take a free value where a field reaches outside, so the 0 beyond the end is never part of a result. -/
def byteAt (b : List Byte) (o : Nat) : Byte := b.getD o 0

/-- `BE_GET16` (R130) inside its sequence: the first byte is the most significant. -/
def beGet16 (b : List Byte) (o : Nat) : BitVec 16 :=
  byteAt b o ++ byteAt b (o + 1)

/-- `BE_GET24` (R131) inside its sequence. -/
def beGet24 (b : List Byte) (o : Nat) : BitVec 24 :=
  byteAt b o ++ byteAt b (o + 1) ++ byteAt b (o + 2)

/-- `BE_GET32` (R132) inside its sequence. -/
def beGet32 (b : List Byte) (o : Nat) : BitVec 32 :=
  byteAt b o ++ byteAt b (o + 1) ++ byteAt b (o + 2) ++ byteAt b (o + 3)

/-- `BE_PUT16` (R133). -/
def bePut16 (v : BitVec 16) : List Byte :=
  [v.extractLsb' 8 8, v.extractLsb' 0 8]

/-- `BE_PUT24` (R134). -/
def bePut24 (v : BitVec 24) : List Byte :=
  [v.extractLsb' 16 8, v.extractLsb' 8 8, v.extractLsb' 0 8]

/-- `BE_PUT32` (R135). -/
def bePut32 (v : BitVec 32) : List Byte :=
  [v.extractLsb' 24 8, v.extractLsb' 16 8, v.extractLsb' 8 8, v.extractLsb' 0 8]

/-- `W`, the width in bits. -/
def widthBits : Width → Nat
  | .w16 => 16
  | .w24 => 24
  | .w32 => 32

/-- `W / 8`, the width in bytes. -/
def widthBytes : Width → Nat
  | .w16 => 2
  | .w24 => 3
  | .w32 => 4

/-- `BE_GETS` (R136) inside its sequence: the `W`-bit field, sign-extended to `i32`. -/
def beGets (w : Width) (b : List Byte) (o : Nat) : BitVec 32 :=
  match w with
  | .w16 => (beGet16 b o).signExtend 32
  | .w24 => (beGet24 b o).signExtend 32
  | .w32 => beGet32 b o

/-- `BE_GET16` of any offset: the field inside the sequence, a free value outside it (log 10). -/
def beRead16 (b : List Byte) (o : Nat) : BitVec 16 :=
  if o + 2 ≤ b.length then beGet16 b o else (Config.beGetOutside 16 b o).setWidth 16

/-- `BE_GET24` of any offset (log 10). -/
def beRead24 (b : List Byte) (o : Nat) : BitVec 24 :=
  if o + 3 ≤ b.length then beGet24 b o else (Config.beGetOutside 24 b o).setWidth 24

/-- `BE_GET32` of any offset (log 10). -/
def beRead32 (b : List Byte) (o : Nat) : BitVec 32 :=
  if o + 4 ≤ b.length then beGet32 b o else Config.beGetOutside 32 b o

/-- `BE_GETS` of any offset: what R136 computes from the value of the unsigned read, free or not. -/
def beReads (w : Width) (b : List Byte) (o : Nat) : BitVec 32 :=
  match w with
  | .w16 => (beRead16 b o).signExtend 32
  | .w24 => (beRead24 b o).signExtend 32
  | .w32 => beRead32 b o

/-- The domain of `BE_PUTS` (R137): −2^(W−1) ≤ v ≤ 2^(W−1) − 1. -/
def inSignedRange (w : Width) (v : BitVec 32) : Bool :=
  decide (-(2 ^ (widthBits w - 1) : Int) ≤ v.toInt ∧ v.toInt ≤ 2 ^ (widthBits w - 1) - 1)

/-- The 32-bit value whose low `W` bits `BE_PUTS` writes: the operand inside the domain of R137, and the free value
outside it (log 4). -/
def bePutsPattern (w : Width) (v : BitVec 32) : BitVec 32 :=
  if inSignedRange w v then v else Config.bePutsOutOfDomain (widthBits w) v.toInt

/-- `BE_PUTS` (R137): for an operand in range the `W`-bit two's-complement pattern, the low `W` bits of the host value. -/
def bePuts (w : Width) (v : BitVec 32) : List Byte :=
  match w with
  | .w16 => bePut16 ((bePutsPattern .w16 v).setWidth 16)
  | .w24 => bePut24 ((bePutsPattern .w24 v).setWidth 24)
  | .w32 => bePut32 (bePutsPattern .w32 v)

end Sys2Proof.Machine
end

