-- ==== Sys2Proof/Machine/Channels.lean ====
section
/-! DEFINITION. The bit-unpacker and packer for 11-bit channel words (42_bit_unpacker.md R120 to R123). -/

namespace Sys2Proof.Machine

/-- The row `x₀, x₁, …` of `k`-bit values as one little-endian number, Σ xⱼ · 2^(k j) (20_memory.md R43). -/
def leNat {k : Nat} : List (BitVec k) → Nat
  | [] => 0
  | x :: xs => x.toNat + 2 ^ k * leNat xs

/-- Bits `k i + k − 1 .. k i` of a number. -/
def digit (k : Nat) (N i : Nat) : BitVec k := BitVec.ofNat k (N >>> (k * i))

/-- `CH_UNPACK` (R120): the 22 bytes as one 176-bit little-endian number, cut into sixteen 11-bit fields. -/
def chUnpack (p : List Byte) : Vector (BitVec 11) 16 :=
  vecOf 16 (digit 11 (leNat p))

/-- `CLAMP11` (R123): the policy the spec takes for values above 2047 (D12). -/
def clamp11 (x : BitVec 16) : BitVec 11 :=
  if 2047 < x.toNat then 2047 else x.setWidth 11

/-- `CH_PACK` (R122): the clamped values as one 176-bit number, cut into 22 bytes. -/
def chPack (v : Vector (BitVec 16) 16) : List Byte :=
  (List.range 22).map (digit 8 (leNat (vecMap clamp11 v).toList))

/-- One row of the table of R121 for a field in two bytes: `((p[j] >> s) | (p[j+1] << (8 − s))) & 0x7FF`. -/
def field2 (p : List Byte) (j s : Nat) : BitVec 11 :=
  BitVec.ofNat 11 (((byteAt p j).toNat >>> s) ||| ((byteAt p (j + 1)).toNat <<< (8 - s)))

/-- One row of the table of R121 for a field in three bytes. -/
def field3 (p : List Byte) (j s : Nat) : BitVec 11 :=
  BitVec.ofNat 11 (((byteAt p j).toNat >>> s) ||| ((byteAt p (j + 1)).toNat <<< (8 - s))
    ||| ((byteAt p (j + 2)).toNat <<< (16 - s)))

/-- The table of R121, column by column: `CH_UNPACK` byte by byte. -/
def chUnpackByBytes (p : List Byte) : List (BitVec 11) :=
  [ field2 p 0 0, field2 p 1 3, field3 p 2 6, field2 p 4 1,
    field2 p 5 4, field3 p 6 7, field2 p 8 2, field2 p 9 5,
    field2 p 11 0, field2 p 12 3, field3 p 13 6, field2 p 15 1,
    field2 p 16 4, field3 p 17 7, field2 p 19 2, field2 p 20 5 ]

/-- One byte of the table of R122 that holds bits of one value. -/
def byteOf1 (w : BitVec 11) (r : Nat) : Byte := BitVec.ofNat 8 (w.toNat >>> r)

/-- One byte of the table of R122 that holds bits of two neighbouring values. -/
def byteOf2 (w : BitVec 11) (r : Nat) (w' : BitVec 11) (l : Nat) : Byte :=
  BitVec.ofNat 8 ((w.toNat >>> r) ||| (w'.toNat <<< l))

/-- Eleven bytes from eight clamped values: the left column of the table of R122. -/
def packHalf (w : Nat → BitVec 11) : List Byte :=
  [ byteOf1 (w 0) 0, byteOf2 (w 0) 8 (w 1) 3, byteOf2 (w 1) 5 (w 2) 6, byteOf1 (w 2) 2,
    byteOf2 (w 2) 10 (w 3) 1, byteOf2 (w 3) 7 (w 4) 4, byteOf2 (w 4) 4 (w 5) 7, byteOf1 (w 5) 1,
    byteOf2 (w 5) 9 (w 6) 2, byteOf2 (w 6) 6 (w 7) 5, byteOf1 (w 7) 3 ]

/-- The table of R122: `CH_PACK` byte by byte; its right column is its left column on values 8 to 15. -/
def chPackByBytes (v : Vector (BitVec 16) 16) : List Byte :=
  packHalf (fun i => clamp11 (v.toList.getD i 0)) ++ packHalf (fun i => clamp11 (v.toList.getD (i + 8) 0))

end Sys2Proof.Machine
end

