-- ==== Sys2Proof/Machine/Payload.lean ====
section
/-! DEFINITION. The six payload codecs (44_payload_codecs.md R140 to R149): every unpack answers a value or
`shape_error` (here `none`), every pack answers bytes, and two packs may refuse (here `none`, the refusal being
`ERR_RANGE`). -/

namespace Sys2Proof.Machine

/-- `CHANNELS_UNPACK` (R140). -/
def channelsUnpack (p : List Byte) : Option (Vector (BitVec 11) 16) :=
  if p.length ≠ 22 then none else some (chUnpack p)

/-- `BATTERY_UNPACK` (R141). -/
def batteryUnpack (p : List Byte) : Option Battery :=
  if p.length ≠ 8 then none
  else some { voltage := beGet16 p 0, current := beGet16 p 2, capacity := beGet24 p 4, remaining := byteAt p 7 }

/-- `BATTERY_PACK` (R142). -/
def batteryPack (x : Battery) : List Byte :=
  bePut16 x.voltage ++ bePut16 x.current ++ bePut24 x.capacity ++ [x.remaining]

/-- `GPS_UNPACK` (R143): 15 bytes, by conflict C1. -/
def gpsUnpack (p : List Byte) : Option Gps :=
  if p.length ≠ 15 then none
  else some
    { latitude := beGets .w32 p 0, longitude := beGets .w32 p 4, groundspeed := beGet16 p 8,
      heading := beGet16 p 10, altitude := beGet16 p 12, satellites := byteAt p 14 }

/-- `GPS_PACK` (R144). -/
def gpsPack (x : Gps) : List Byte :=
  bePuts .w32 x.latitude ++ bePuts .w32 x.longitude ++ bePut16 x.groundspeed ++ bePut16 x.heading
    ++ bePut16 x.altitude ++ [x.satellites]

/-- `RPM_UNPACK` (R145). -/
def rpmUnpack (p : List Byte) : Option Rpm :=
  let n := p.length
  if n < 4 ∨ (n - 1) % 3 ≠ 0 ∨ Config.rpmMax < (n - 1) / 3 then none
  else some
    { sourceId := byteAt p 0, values := (List.range ((n - 1) / 3)).map fun k => beGets .w24 p (1 + 3 * k) }

/-- `RPM_PACK` (R146): an empty list is refused, excess entries are dropped, and only the entries kept are checked. -/
def rpmPack (sourceId : Byte) (values : List (BitVec 32)) : Option (List Byte) :=
  if values.isEmpty then none
  else
    let vals := values.take Config.rpmMax
    if vals.any (fun x => !inSignedRange .w24 x) then none
    else some (sourceId :: vals.flatMap (bePuts .w24))

/-- `TEMP_UNPACK` (R147). -/
def tempUnpack (p : List Byte) : Option Temp :=
  let n := p.length
  if n < 3 ∨ (n - 1) % 2 ≠ 0 ∨ Config.tempMax < (n - 1) / 2 then none
  else some
    { sourceId := byteAt p 0,
      values := (List.range ((n - 1) / 2)).map fun k => (beGets .w16 p (1 + 2 * k)).setWidth 16 }

/-- `TEMP_PACK` (R148): an empty list is refused and excess entries are dropped. -/
def tempPack (sourceId : Byte) (values : List (BitVec 16)) : Option (List Byte) :=
  if values.isEmpty then none
  else some (sourceId :: (values.take Config.tempMax).flatMap fun x => bePuts .w16 (x.signExtend 32))

/-- `LINK_UNPACK` (R149). -/
def linkUnpack (p : List Byte) : Option (Vector Byte 10) :=
  if p.length ≠ 10 then none else some (vecOf 10 (byteAt p))

/-- `LINK_PACK` (R149). -/
def linkPack (ls : Vector Byte 10) : List Byte := ls.toList

end Sys2Proof.Machine
end

