-- ==== Sys2Proof/WellFormed.lean ====
section
/-! DEFINITION. Which instructions have an encoding: the bounds of the frame format, the reserved range of the host
codes, and the one-byte offset of the marshaler's reads. -/

namespace Sys2Proof

/-- A frame's payload is 0 to 60 bytes (R61). Its length need not fit its type: such a frame exists and is dropped with
`ERR_PAYLOAD_SHAPE` (R155). -/
def payloadFits (payload : List Byte) : Bool :=
  decide (payload.length ≤ Config.maxPayload)

/-- An instruction is well formed when its encoding can carry it. -/
def Instr.wf (P : Params) : Instr → Bool
  | .gps _ p _ => payloadFits p
  | .battery _ p _ => payloadFits p
  | .rpm _ p _ => payloadFits p
  | .temp _ p _ => payloadFits p
  | .link _ p _ => payloadFits p
  | .channels _ p _ => payloadFits p
  | .generic _ type p _ => payloadFits p && !(P.types.contains type)
  | .init _ _ => true
  | .receiveChannels => true
  | .getLinkStatistics => true
  | .isFailsafe => true
  | .sendBattery _ _ => true
  | .sendGps _ _ => true
  | .sendRpm _ _ _ => true
  | .sendTemp _ _ _ => true
  | .reservedOp op => decide (8 ≤ op.toNat)
  | .crcBuild _ => true
  | .crcSum _ _ => true
  | .rxByte _ => true
  | .rxChunk _ => true
  | .frameEncode _ _ _ => true
  | .chUnpack _ => true
  | .chPack _ => true
  | .beGet16 _ o => decide (o < 256)
  | .beGet24 _ o => decide (o < 256)
  | .beGet32 _ o => decide (o < 256)
  | .bePut16 _ => true
  | .bePut24 _ => true
  | .bePut32 _ => true
  | .beGets _ _ o => decide (o < 256)
  | .bePuts _ _ => true
  | .batteryUnpack _ => true
  | .batteryPack _ => true
  | .gpsUnpack _ => true
  | .gpsPack _ => true
  | .rpmUnpack _ => true
  | .rpmPack _ _ => true
  | .tempUnpack _ => true
  | .tempPack _ _ => true
  | .linkUnpack _ => true
  | .linkPack _ => true
  | .dispatch _ _ _ => true
  | .stUpdateCh _ => true
  | .stReadCh => true
  | .stUpdateLs _ => true
  | .stReadLs => true
  | .fsFeed => true
  | .fsExpire => true
  | .tick => true
  | .fsQuery => true

end Sys2Proof
end

