-- ==== Sys2Proof/Decode.lean ====
section
/-! DEFINITION. The decoder, total on any bytes and rejecting by name, and the encoder.
A frame's bytes are the spec's bit-exact wire format (30_encoding.md R60). An operation of the host port or of a unit is
its 6-bit code in one byte (R75, R76) followed by its operands; the spec gives the codes and the operands' widths (R78)
and no layout for the operands, so their bytes are the model's own (log 5, DESIGN CHOICE): big-endian as on the wire, a
record in its payload's layout, one list at the end taking all the bytes that are left. -/

namespace Sys2Proof

open Machine

/-- The operations that have a code of their own: the eight host operations and the thirty-four unit operations. -/
inductive Op where
  | init | receiveChannels | getLinkStatistics | isFailsafe | sendBattery | sendGps | sendRpm | sendTemp
  | crcBuild | crcSum | rxByte | rxChunk | frameEncode | chUnpack | chPack
  | beGet16 | beGet24 | beGet32 | bePut16 | bePut24 | bePut32 | beGets | bePuts
  | batteryUnpack | batteryPack | gpsUnpack | gpsPack | rpmUnpack | rpmPack | tempUnpack | tempPack
  | linkUnpack | linkPack | dispatch
  | stUpdateCh | stReadCh | stUpdateLs | stReadLs
  | fsFeed | fsExpire | tick | fsQuery
  deriving DecidableEq, Repr

/-- The codes of the host operations (R75). -/
def hostOps : List (Byte × Op) :=
  [ (0x00, .init), (0x01, .receiveChannels), (0x02, .getLinkStatistics), (0x03, .isFailsafe),
    (0x04, .sendBattery), (0x05, .sendGps), (0x06, .sendRpm), (0x07, .sendTemp) ]

/-- The identifiers of the unit operations (R76). -/
def unitOps : List (Byte × Op) :=
  [ (0x10, .crcBuild), (0x11, .crcSum), (0x12, .rxByte), (0x13, .rxChunk), (0x14, .frameEncode),
    (0x15, .chUnpack), (0x16, .chPack), (0x17, .beGet16), (0x18, .beGet24), (0x19, .beGet32),
    (0x1A, .bePut16), (0x1B, .bePut24), (0x1C, .bePut32), (0x1D, .beGets), (0x1E, .bePuts) ]
  ++ [ (0x20, .batteryUnpack), (0x21, .batteryPack), (0x22, .gpsUnpack), (0x23, .gpsPack),
    (0x24, .rpmUnpack), (0x25, .rpmPack), (0x26, .tempUnpack), (0x27, .tempPack),
    (0x28, .linkUnpack), (0x29, .linkPack), (0x2A, .dispatch) ]
  ++ [ (0x30, .stUpdateCh), (0x31, .stReadCh), (0x32, .stUpdateLs), (0x33, .stReadLs),
    (0x38, .fsFeed), (0x39, .fsExpire), (0x3A, .tick), (0x3B, .fsQuery) ]

/-- The bytes the operands of an operation take when its list at the end is as short as it can be. -/
def operandBytes : Op → Nat
  | .init => 2
  | .receiveChannels => 0
  | .getLinkStatistics => 0
  | .isFailsafe => 0
  | .sendBattery => 9
  | .sendGps => 16
  | .sendRpm => 2
  | .sendTemp => 2
  | .crcBuild => 1
  | .crcSum => 256
  | .rxByte => 1
  | .rxChunk => 0
  | .frameEncode => 2
  | .chUnpack => 22
  | .chPack => 32
  | .beGet16 => 3
  | .beGet24 => 4
  | .beGet32 => 5
  | .bePut16 => 2
  | .bePut24 => 3
  | .bePut32 => 4
  | .beGets => 4
  | .bePuts => 5
  | .batteryUnpack => 0
  | .batteryPack => 8
  | .gpsUnpack => 0
  | .gpsPack => 15
  | .rpmUnpack => 0
  | .rpmPack => 1
  | .tempUnpack => 0
  | .tempPack => 1
  | .linkUnpack => 0
  | .linkPack => 10
  | .dispatch => 2
  | .stUpdateCh => 32
  | .stReadCh => 0
  | .stUpdateLs => 10
  | .stReadLs => 0
  | .fsFeed => 0
  | .fsExpire => 0
  | .tick => 0
  | .fsQuery => 0

/-- A destination operand: 0 is `FC`, 1 is `TX`. -/
def destOfCode (b : Byte) : Option Dest :=
  if b = 0 then some .fc else if b = 1 then some .tx else none

/-- The byte of a destination operand. -/
def destCode : Dest → Byte
  | .fc => 0
  | .tx => 1

/-- A bit operand. -/
def bitOfCode (b : Byte) : Option Bool :=
  if b = 0 then some false else if b = 1 then some true else none

/-- The byte of a bit operand. -/
def bitCode : Bool → Byte
  | false => 0
  | true => 1

/-- A width operand: 0, 1, 2 are 16, 24, 32 bits. -/
def widthOfCode (b : Byte) : Option Width :=
  if b = 0 then some .w16 else if b = 1 then some .w24 else if b = 2 then some .w32 else none

/-- The byte of a width operand. -/
def widthCode : Width → Byte
  | .w16 => 0
  | .w24 => 1
  | .w32 => 2

/-- A list of `i16` or `u16` operands, two bytes each. -/
def words16 : List Byte → Option (List (BitVec 16))
  | [] => some []
  | a :: b :: r => (words16 r).map fun ws => beGet16 [a, b] 0 :: ws
  | [_] => none

/-- A list of `i32` operands, four bytes each. -/
def words32 : List Byte → Option (List (BitVec 32))
  | [] => some []
  | a :: b :: c :: d :: r => (words32 r).map fun ws => beGet32 [a, b, c, d] 0 :: ws
  | [_] => none
  | [_, _] => none
  | [_, _, _] => none

/-- Sixteen `u11` operands, two bytes each, the upper five bits 0. -/
def words11 (args : List Byte) : Option (Vector (BitVec 11) 16) :=
  let ws := vecOf 16 fun i => beGet16 args (2 * i)
  if ws.toList.all fun x => decide (x.toNat < 2048) then some (vecMap (BitVec.setWidth 11) ws) else none

/-- An answer when the operand bytes have the right number, a rejection when they have not. -/
def sized (op : Byte) (fits : Bool) (i : Instr) : Except DecodeError Instr :=
  if fits then .ok i else .error (.operandLength op)

/-- An answer when the operand bytes name a value. -/
def valued {α : Type} (op : Byte) (x : Option α) (k : α → Except DecodeError Instr) : Except DecodeError Instr :=
  match x with
  | some v => k v
  | none => .error (.operandValue op)

/-- The instruction of an operation with these operand bytes; `code` is the byte a rejection names. -/
def decodeOperands (code : Byte) (op : Op) (args : List Byte) : Except DecodeError Instr :=
  let n := args.length
  match op with
  | .init => if n ≠ 2 then .error (.operandLength code)
      else valued code (bitOfCode (byteAt args 1)) fun v => .ok (.init (byteAt args 0) v)
  | .receiveChannels => sized code (n == 0) .receiveChannels
  | .getLinkStatistics => sized code (n == 0) .getLinkStatistics
  | .isFailsafe => sized code (n == 0) .isFailsafe
  | .sendBattery => if n ≠ 9 then .error (.operandLength code)
      else valued code (destOfCode (byteAt args 0)) fun d =>
        valued code (batteryUnpack (args.drop 1)) fun x => .ok (.sendBattery d x)
  | .sendGps => if n ≠ 16 then .error (.operandLength code)
      else valued code (destOfCode (byteAt args 0)) fun d =>
        valued code (gpsUnpack (args.drop 1)) fun x => .ok (.sendGps d x)
  | .sendRpm => if n < 2 then .error (.operandLength code)
      else valued code (destOfCode (byteAt args 0)) fun d =>
        match words32 (args.drop 2) with
        | some vs => .ok (.sendRpm d (byteAt args 1) vs)
        | none => .error (.operandLength code)
  | .sendTemp => if n < 2 then .error (.operandLength code)
      else valued code (destOfCode (byteAt args 0)) fun d =>
        match words16 (args.drop 2) with
        | some vs => .ok (.sendTemp d (byteAt args 1) vs)
        | none => .error (.operandLength code)
  | .crcBuild => sized code (n == 1) (.crcBuild (byteAt args 0))
  | .crcSum => sized code (decide (256 ≤ n)) (.crcSum (vecOf 256 (byteAt args)) (args.drop 256))
  | .rxByte => sized code (n == 1) (.rxByte (byteAt args 0))
  | .rxChunk => .ok (.rxChunk args)
  | .frameEncode => sized code (decide (2 ≤ n)) (.frameEncode (byteAt args 0) (byteAt args 1) (args.drop 2))
  | .chUnpack => sized code (n == 22) (.chUnpack (vecOf 22 (byteAt args)))
  | .chPack => sized code (n == 32) (.chPack (vecOf 16 fun i => beGet16 args (2 * i)))
  | .beGet16 => sized code (decide (1 ≤ n)) (.beGet16 (args.drop 1) (byteAt args 0).toNat)
  | .beGet24 => sized code (decide (1 ≤ n)) (.beGet24 (args.drop 1) (byteAt args 0).toNat)
  | .beGet32 => sized code (decide (1 ≤ n)) (.beGet32 (args.drop 1) (byteAt args 0).toNat)
  | .bePut16 => sized code (n == 2) (.bePut16 (beGet16 args 0))
  | .bePut24 => sized code (n == 3) (.bePut24 (beGet24 args 0))
  | .bePut32 => sized code (n == 4) (.bePut32 (beGet32 args 0))
  | .beGets => if n < 2 then .error (.operandLength code)
      else valued code (widthOfCode (byteAt args 0)) fun w => .ok (.beGets w (args.drop 2) (byteAt args 1).toNat)
  | .bePuts => if n ≠ 5 then .error (.operandLength code)
      else valued code (widthOfCode (byteAt args 0)) fun w => .ok (.bePuts w (beGet32 args 1))
  | .batteryUnpack => .ok (.batteryUnpack args)
  | .batteryPack => if n ≠ 8 then .error (.operandLength code)
      else valued code (batteryUnpack args) fun x => .ok (.batteryPack x)
  | .gpsUnpack => .ok (.gpsUnpack args)
  | .gpsPack => if n ≠ 15 then .error (.operandLength code)
      else valued code (gpsUnpack args) fun x => .ok (.gpsPack x)
  | .rpmUnpack => .ok (.rpmUnpack args)
  | .rpmPack => if n < 1 then .error (.operandLength code)
      else match words32 (args.drop 1) with
        | some vs => .ok (.rpmPack (byteAt args 0) vs)
        | none => .error (.operandLength code)
  | .tempUnpack => .ok (.tempUnpack args)
  | .tempPack => if n < 1 then .error (.operandLength code)
      else match words16 (args.drop 1) with
        | some vs => .ok (.tempPack (byteAt args 0) vs)
        | none => .error (.operandLength code)
  | .linkUnpack => .ok (.linkUnpack args)
  | .linkPack => sized code (n == 10) (.linkPack (vecOf 10 (byteAt args)))
  | .dispatch => sized code (decide (2 ≤ n)) (.dispatch (byteAt args 0) (byteAt args 1) (args.drop 2))
  | .stUpdateCh => if n ≠ 32 then .error (.operandLength code)
      else valued code (words11 args) fun v => .ok (.stUpdateCh v)
  | .stReadCh => sized code (n == 0) .stReadCh
  | .stUpdateLs => sized code (n == 10) (.stUpdateLs (vecOf 10 (byteAt args)))
  | .stReadLs => sized code (n == 0) .stReadLs
  | .fsFeed => sized code (n == 0) .fsFeed
  | .fsExpire => sized code (n == 0) .fsExpire
  | .tick => sized code (n == 0) .tick
  | .fsQuery => sized code (n == 0) .fsQuery

/-- The host port (R185, R195): a code 0x00 to 0x07 is an operation, any other 6-bit code is refused whatever its
operands, and a byte over six bits is no code. -/
def decodeHost : List Byte → Except DecodeError Instr
  | [] => .error .empty
  | code :: args =>
    match hostOps.lookup code with
    | some op => decodeOperands code op args
    | none => if code.toNat < 64 then .ok (.reservedOp (code.setWidth 6)) else .error (.opTooWide code)

/-- The identifiers of the unit operations (R76). -/
def decodeUnit : List Byte → Except DecodeError Instr
  | [] => .error .empty
  | code :: args =>
    match unitOps.lookup code with
    | some op => decodeOperands code op args
    | none => .error (.notAUnit code)

/-- The destination a frame's first byte names (R63). -/
def destOf (P : Params) (b : Byte) : Option Dest :=
  if b = P.destFc then some .fc else if b = P.destTx then some .tx else none

/-- `dval` (R185): the byte of a destination. -/
def dval (P : Params) : Dest → Byte
  | .fc => P.destFc
  | .tx => P.destTx

/-- The type map (R65): the row whose type code the `TYPE` byte equals, and `GENERIC` where it equals none. -/
def frameOfType (P : Params) (dest : Dest) (type : Byte) (payload : List Byte) (crc : Byte) : Instr :=
  if type = P.typeChannels then .channels dest payload crc
  else if type = P.typeLink then .link dest payload crc
  else if type = P.typeBattery then .battery dest payload crc
  else if type = P.typeGps then .gps dest payload crc
  else if type = P.typeRpm then .rpm dest payload crc
  else if type = P.typeTemp then .temp dest payload crc
  else .generic dest type payload crc

/-- One whole frame (R60, R61): destination, length in 2..62, and `LEN` bytes after it. -/
def decodeFrame (P : Params) : List Byte → Except DecodeError Instr
  | [] => .error .empty
  | [_] => .error .frameLength
  | dest :: len :: body =>
    match destOf P dest with
    | none => .error (.notDest dest)
    | some d =>
      if len.toNat < Config.minLen ∨ Config.maxLen < len.toNat then .error (.badLength len)
      else if body.length ≠ len.toNat then .error .frameLength
      else .ok (frameOfType P d (byteAt body 0) ((body.drop 1).take (len.toNat - 2)) (byteAt body (len.toNat - 1)))

/-- The serial side: a whole frame is that frame's row, and any other bytes are a chunk of the stream (R108), for the
receiver takes every byte (R101). -/
def decodeSerial (P : Params) (bytes : List Byte) : Instr :=
  match decodeFrame P bytes with
  | .ok i => i
  | .error _ => .rxChunk bytes

/-- What an encoded operation presented at a port is. -/
def decode (P : Params) (port : Port) (bytes : List Byte) : Except DecodeError Instr :=
  match port with
  | .host => decodeHost bytes
  | .unit => decodeUnit bytes
  | .serial => .ok (decodeSerial P bytes)

/-- The bytes of a frame with a given checksum byte (R60): `[DEST, LEN, TYPE] ++ PAYLOAD ++ [CRC]`. -/
def frameBytes (P : Params) (dest : Dest) (type : Byte) (payload : List Byte) (crc : Byte) : List Byte :=
  [dval P dest, BitVec.ofNat 8 (payload.length + 2), type] ++ payload ++ [crc]

/-- The port at which an instruction is presented. -/
def portOf : Instr → Port
  | .gps _ _ _ => .serial
  | .battery _ _ _ => .serial
  | .rpm _ _ _ => .serial
  | .temp _ _ _ => .serial
  | .link _ _ _ => .serial
  | .channels _ _ _ => .serial
  | .generic _ _ _ _ => .serial
  | .init _ _ => .host
  | .receiveChannels => .host
  | .getLinkStatistics => .host
  | .isFailsafe => .host
  | .sendBattery _ _ => .host
  | .sendGps _ _ => .host
  | .sendRpm _ _ _ => .host
  | .sendTemp _ _ _ => .host
  | .reservedOp _ => .host
  | .crcBuild _ => .unit
  | .crcSum _ _ => .unit
  | .rxByte _ => .unit
  | .rxChunk _ => .unit
  | .frameEncode _ _ _ => .unit
  | .chUnpack _ => .unit
  | .chPack _ => .unit
  | .beGet16 _ _ => .unit
  | .beGet24 _ _ => .unit
  | .beGet32 _ _ => .unit
  | .bePut16 _ => .unit
  | .bePut24 _ => .unit
  | .bePut32 _ => .unit
  | .beGets _ _ _ => .unit
  | .bePuts _ _ => .unit
  | .batteryUnpack _ => .unit
  | .batteryPack _ => .unit
  | .gpsUnpack _ => .unit
  | .gpsPack _ => .unit
  | .rpmUnpack _ => .unit
  | .rpmPack _ _ => .unit
  | .tempUnpack _ => .unit
  | .tempPack _ _ => .unit
  | .linkUnpack _ => .unit
  | .linkPack _ => .unit
  | .dispatch _ _ _ => .unit
  | .stUpdateCh _ => .unit
  | .stReadCh => .unit
  | .stUpdateLs _ => .unit
  | .stReadLs => .unit
  | .fsFeed => .unit
  | .fsExpire => .unit
  | .tick => .unit
  | .fsQuery => .unit

/-- The words of an instruction: the frame format of R60, the codes of R75 and R76, the operands in the layout of
log 5. A record is laid out byte for byte as its payload, by the plain big-endian writes. -/
def encode (P : Params) : Instr → List Byte
  | .gps d p c => frameBytes P d P.typeGps p c
  | .battery d p c => frameBytes P d P.typeBattery p c
  | .rpm d p c => frameBytes P d P.typeRpm p c
  | .temp d p c => frameBytes P d P.typeTemp p c
  | .link d p c => frameBytes P d P.typeLink p c
  | .channels d p c => frameBytes P d P.typeChannels p c
  | .generic d t p c => frameBytes P d t p c
  | .init poly v => [0x00, poly, bitCode v]
  | .receiveChannels => [0x01]
  | .getLinkStatistics => [0x02]
  | .isFailsafe => [0x03]
  | .sendBattery d x => [0x04, destCode d] ++ batteryPack x
  | .sendGps d x => [0x05, destCode d] ++ gpsPack x
  | .sendRpm d sid vs => [0x06, destCode d, sid] ++ vs.flatMap bePut32
  | .sendTemp d sid vs => [0x07, destCode d, sid] ++ vs.flatMap bePut16
  | .reservedOp op => [op.setWidth 8]
  | .crcBuild poly => [0x10, poly]
  | .crcSum t bs => [0x11] ++ t.toList ++ bs
  | .rxByte b => [0x12, b]
  | .rxChunk bs => [0x13] ++ bs
  | .frameEncode d t p => [0x14, d, t] ++ p
  | .chUnpack p => [0x15] ++ p.toList
  | .chPack v => [0x16] ++ v.toList.flatMap bePut16
  | .beGet16 b o => [0x17, BitVec.ofNat 8 o] ++ b
  | .beGet24 b o => [0x18, BitVec.ofNat 8 o] ++ b
  | .beGet32 b o => [0x19, BitVec.ofNat 8 o] ++ b
  | .bePut16 v => [0x1A] ++ bePut16 v
  | .bePut24 v => [0x1B] ++ bePut24 v
  | .bePut32 v => [0x1C] ++ bePut32 v
  | .beGets w b o => [0x1D, widthCode w, BitVec.ofNat 8 o] ++ b
  | .bePuts w v => [0x1E, widthCode w] ++ bePut32 v
  | .batteryUnpack p => [0x20] ++ p
  | .batteryPack x => [0x21] ++ batteryPack x
  | .gpsUnpack p => [0x22] ++ p
  | .gpsPack x => [0x23] ++ gpsPack x
  | .rpmUnpack p => [0x24] ++ p
  | .rpmPack sid vs => [0x25, sid] ++ vs.flatMap bePut32
  | .tempUnpack p => [0x26] ++ p
  | .tempPack sid vs => [0x27, sid] ++ vs.flatMap bePut16
  | .linkUnpack p => [0x28] ++ p
  | .linkPack ls => [0x29] ++ ls.toList
  | .dispatch d t p => [0x2A, d, t] ++ p
  | .stUpdateCh v => [0x30] ++ v.toList.flatMap fun x => bePut16 (x.setWidth 16)
  | .stReadCh => [0x31]
  | .stUpdateLs ls => [0x32] ++ ls.toList
  | .stReadLs => [0x33]
  | .fsFeed => [0x38]
  | .fsExpire => [0x39]
  | .tick => [0x3A]
  | .fsQuery => [0x3B]

/-- The first `n` bytes of a table word, bit 0 the least significant bit of the first byte. -/
def wordBytes (n w : Nat) : List Byte :=
  (List.range n).map fun k => BitVec.ofNat 8 (w >>> (8 * k))

/-- The shortest payload a frame type's own row admits (R65); a `GENERIC` frame's is empty. -/
def shortestPayload (P : Params) (type : Byte) : Nat :=
  if type = P.typeChannels then 22
  else if type = P.typeLink then 10
  else if type = P.typeBattery then 8
  else if type = P.typeGps then 15
  else if type = P.typeRpm then 4
  else if type = P.typeTemp then 3
  else 0

/-- The bytes with zeros after them up to length `n`. -/
def zeroPadded (bs : List Byte) (n : Nat) : List Byte :=
  bs ++ List.replicate (n - bs.length) 0

/-- The frame whose `TYPE` byte a table word gives (log 6): to `DEST_FC`, its payload the bytes that follow in the word
and zeros, its length and its checksum as R60 and R64 require. -/
def tableFrame (P : Params) (type : Byte) (rest : List Byte) : List Byte :=
  let payload := zeroPadded rest (shortestPayload P type)
  frameBytes P .fc type payload (crcBitwise Config.protocolPoly (type :: payload))

/-- Where and as what bytes an instruction stands whose bits spec/opcode_table.json numbers as `w` (log 6). The table
gives the frame rows a pattern over the `TYPE` byte and the operation rows one over the 6-bit code, so one number can
be both: a width of six bits is a code; in eight bits the six recognised types come first, then the codes, and any
other byte is the type of a `GENERIC` frame. -/
def tableRequest (nbits w : Nat) : Port × List Byte :=
  let P := Config.params
  let bytes := wordBytes (max 1 ((nbits + 7) / 8)) w
  let b := byteAt bytes 0
  let rest := bytes.drop 1
  if 6 < nbits && P.types.contains b then (.serial, tableFrame P b rest)
  else match hostOps.lookup b with
    | some op => (.host, b :: zeroPadded rest (operandBytes op))
    | none =>
      match unitOps.lookup b with
      | some op => (.unit, b :: zeroPadded rest (operandBytes op))
      | none => if b.toNat < 16 || nbits ≤ 6 then (.host, b :: rest) else (.serial, tableFrame P b rest)

/-- The instruction the decoder reads from a table word, if it reads one. -/
def decodeTableWord (nbits w : Nat) : Option Instr :=
  match decode Config.params (tableRequest nbits w).1 (tableRequest nbits w).2 with
  | .ok i => some i
  | .error _ => none

end Sys2Proof
end

