-- ==== Sys2Proof/Machine/State.lean ====
section
/-! DEFINITION. The complete state of one engine (10_state.md R10), its two output streams and the results handed back
(R30, R185), and what the environment holds ready for it (20_memory.md R50); the reasons a step can stop; the state
after reset (70_reset_and_hazards.md R231). -/

namespace Sys2Proof.Machine

/-- `RXS` (R20): the resting states of the receive sequencer. -/
inductive RxState where
  | seekSync
  | readLength
  | awaitBody
  deriving DecidableEq, Repr

/-- `CFG` (R29). -/
structure Cfg where
  /-- `CFG.POLY`, the polynomial the table was built from. -/
  poly : Byte
  /-- `CFG.CRC_VERIFY`, checksum verification on receive. -/
  crcVerify : Bool
  deriving DecidableEq, Repr

/-- The error codes an operation hands back to its caller (R185, R201). -/
inductive ErrCode where
  | encodingLimit
  | notInitialised
  | range
  | badOp
  deriving DecidableEq, Repr

/-- One record of the event output `EV` (60_exceptions.md R200). -/
inductive Event where
  | errDesyncSkip (b : Byte)
  | errBadLength (b : Byte)
  | errCrcMismatch (computed received : Byte)
  | errUnsupportedType (type : Byte)
  | errPayloadShape (type : Byte) (n : Nat)
  | errEncodingLimit (n : Nat)
  /-- Reserved and never raised (R208). -/
  | errAllocation
  | errNotInitialised (op : BitVec 6)
  | errRange (op : BitVec 6)
  | errBadOp (op : BitVec 6)
  | decChannels (dest : Byte) (v : Vector (BitVec 11) 16)
  | decLink (dest : Byte) (ls : Vector Byte 10)
  | decBattery (dest : Byte) (x : Battery)
  | decGps (dest : Byte) (x : Gps)
  | decRpm (dest : Byte) (x : Rpm)
  | decTemp (dest : Byte) (x : Temp)
  | generic (dest : Byte) (type : Byte) (payload : List Byte)
  | failsafe
  deriving DecidableEq, Repr

/-- What an operation hands back to its caller (R8 `result`, R185). -/
inductive Result where
  | ok
  | error (code : ErrCode)
  /-- The sixteen `u16` of `RECEIVE_CHANNELS` (R187). -/
  | channelData (v : Vector (BitVec 16) 16)
  /-- The ten bytes of `GET_LINK_STATISTICS` and `ST_READ_LS` (R188, R173). -/
  | linkStatistics (ls : Vector Byte 10)
  | bit (b : Bool)
  | table (t : Vector Byte 256)
  | u8 (v : Byte)
  | u16 (v : BitVec 16)
  | u24 (v : BitVec 24)
  | u32 (v : BitVec 32)
  /-- A signed field widened to `i32` (R136). -/
  | i32 (v : BitVec 32)
  | bytes (bs : List Byte)
  /-- The sixteen `u11` of `CH_UNPACK` and `ST_READ_CH` (R120, R171). -/
  | ch (v : Vector (BitVec 11) 16)
  | battery (x : Battery)
  | gps (x : Gps)
  | rpm (x : Rpm)
  | temp (x : Temp)
  | shapeError
  | refused (code : ErrCode)
  deriving DecidableEq, Repr

/-- Why the machine stops with a fault. No run from reset in which only agents step meets one (the model's own theorem
to prove); each is safe, for the model stops where the spec gives no value. -/
inductive Fault where
  /-- A storage array is accessed outside its range (R40, 93_implementation_defined.md U13). Raised by the array
  accesses of Ops.lean; safe. -/
  | indexOutside (array : ArrayName) (i : Nat)
  /-- An array element that nothing has written is read (R8, R231). Raised by the array reads of Ops.lean; safe. -/
  | unwritten (array : ArrayName) (i : Nat)
  /-- `FRAME_ENCODE` presented as a unit operation while `INITED` = 0, which R110 rules out. Safe. -/
  | requiresInit
  deriving DecidableEq, Repr

/-- Why the machine has no meaning for what was presented. -/
inductive Refusal where
  /-- The instruction has no meaning in the model yet. Raised by no arm; safe. -/
  | notModelled (mnemonic : String)
  /-- The bytes presented at a port are no operation of that port. Raised by `step`; safe. -/
  | undecodable (e : DecodeError)
  deriving DecidableEq, Repr

/-- The complete state of one engine instance (R10), followed by its outputs and by what the environment holds. -/
structure State where
  /-- `CH[0..15]`, the channel registers (R11). -/
  ch : Vector (BitVec 11) 16
  /-- `LS[0..9]`, the link-statistics registers (R12). -/
  ls : Vector Byte 10
  /-- `FS`, the failsafe flag: true is `FAILSAFE` (R26). -/
  fs : Bool
  /-- `WDT_ARMED` (R28). -/
  wdtArmed : Bool
  /-- `WDT_CNT` (R28). -/
  wdtCnt : Nat
  /-- `RXS` (R20). -/
  rxs : RxState
  /-- `RXN` (R21). -/
  rxn : Nat
  /-- `RXLEN` (R22). -/
  rxlen : Byte
  /-- `RXBUF[0..63]` (R23). -/
  rxbuf : Memory
  /-- `TXBUF[0..63]` (R24). -/
  txbuf : Memory
  /-- `TABLE[0..255]` (R25). -/
  table : Memory
  /-- `INITED` (R27). -/
  inited : Bool
  /-- `CFG` (R29). -/
  cfg : Cfg
  /-- `TX`: every byte written to the byte sink, oldest first (R30). -/
  tx : List Byte
  /-- `EV`: every event, oldest first (R30, R200). -/
  ev : List Event
  /-- The results handed back to callers, oldest first (R185, R242). -/
  res : List Result
  /-- The bytes presented at the byte source that no `RX_BYTE` step has taken yet, oldest first (R100, R101). -/
  src : List Byte
  /-- The steps the environment, the hosts and the timer take next, in their total order (R50). -/
  inbox : List Entry
  deriving DecidableEq, Repr

/-- The state after reset (R231); nothing is written in the storage arrays.
DESIGN CHOICE (log 3): `WDT_CNT`, `RXLEN` and `CFG`, which R231 leaves unspecified, are 0. -/
def State.reset : State where
  ch := Vector.replicate 16 0
  ls := Vector.replicate 10 0
  fs := true
  wdtArmed := false
  wdtCnt := 0
  rxs := .seekSync
  rxn := 0
  rxlen := 0
  rxbuf := []
  txbuf := []
  table := []
  inited := false
  cfg := ⟨0, false⟩
  tx := []
  ev := []
  res := []
  src := []
  inbox := []

end Sys2Proof.Machine
end

