-- ==== Sys2Proof/Machine/Ops.lean ====
section
/-! DEFINITION. The named operations over the state: array accesses, the event output and the results, the snapshot
register file, the byte source and the byte sink, the receive sequencer's registers, hardware reset. -/

namespace Sys2Proof.Machine

/-- What an operation on the state answers. -/
abbrev Out := Host.Outcome State Fault Refusal

/-! Array accesses (20_memory.md R40, R57). -/

/-- `MemRead(A, i)` (R8, R40). -/
def memRead (name : ArrayName) (a : Memory) (i : Nat) : Except Fault Byte :=
  if i < arraySize name then
    match a.read i with
    | some v => .ok v
    | none => .error (.unwritten name i)
  else .error (.indexOutside name i)

/-- `MemRead` of `n` elements from index `i` on, in order. -/
def memReadFrom (name : ArrayName) (a : Memory) (i : Nat) : Nat → Except Fault (List Byte)
  | 0 => .ok []
  | n + 1 =>
    match memRead name a i with
    | .error f => .error f
    | .ok v =>
      match memReadFrom name a (i + 1) n with
      | .error f => .error f
      | .ok vs => .ok (v :: vs)

/-- `MemWrite(A, i, v)` (R8, R40). -/
def memWrite (name : ArrayName) (a : Memory) (i : Nat) (v : Byte) : Except Fault Memory :=
  if i < arraySize name then .ok (a.write i v) else .error (.indexOutside name i)

/-- `MemWrite` of a row of bytes from index `i` on, in order. -/
def memWriteFrom (name : ArrayName) (a : Memory) (i : Nat) : List Byte → Except Fault Memory
  | [] => .ok a
  | v :: vs =>
    match memWrite name a i v with
    | .error f => .error f
    | .ok a' => memWriteFrom name a' (i + 1) vs

/-- Go on with the value of an access, or stop with its fault. -/
def withValue {α : Type} (x : Except Fault α) (k : α → Out) : Out :=
  match x with
  | .ok v => k v
  | .error f => .fault f

/-! Events and results (60_exceptions.md R200). Raising an error is the engine's whole exception entry (R213): the event
is appended, no state is saved, no mode changes, nothing is masked and control goes nowhere; the rule that raises it
states its recovery. There is nothing to return from (R214). -/

/-- `raise E(info)`: append an error event (R8, R200, R213). -/
def raise (e : Event) (s : State) : State := { s with ev := s.ev ++ [e] }

/-- `emit X`: append a data event (R8, R200). -/
def emitEvent (e : Event) (s : State) : State := { s with ev := s.ev ++ [e] }

/-- `result(x)`: hand a value back to the caller (R8, R185). -/
def give (r : Result) (s : State) : State := { s with res := s.res ++ [r] }

/-- The numeric code of an event record (R200). -/
def eventCode : Event → Byte
  | .errDesyncSkip _ => 0x01
  | .errBadLength _ => 0x02
  | .errCrcMismatch _ _ => 0x03
  | .errUnsupportedType _ => 0x04
  | .errPayloadShape _ _ => 0x05
  | .errEncodingLimit _ => 0x06
  | .errAllocation => 0x07
  | .errNotInitialised _ => 0x08
  | .errRange _ => 0x09
  | .errBadOp _ => 0x0A
  | .decChannels _ _ => 0x10
  | .decLink _ _ => 0x11
  | .decBattery _ _ => 0x12
  | .decGps _ _ => 0x13
  | .decRpm _ _ => 0x14
  | .decTemp _ _ => 0x15
  | .generic _ _ _ => 0x16
  | .failsafe => 0x17

/-- Whether an event record is an error (R201) and not a data event. -/
def isErrorEvent (e : Event) : Bool := decide ((eventCode e).toNat < 0x10)

/-! The snapshot register file (45_snapshot_regfile.md): whole records, one operation at a time (R174). -/

/-- `ST_UPDATE_CH` (R170). -/
def updateChannels (v : Vector (BitVec 11) 16) (s : State) : State := { s with ch := v }

/-- `ST_READ_CH` (R171): a copy. -/
def readChannels (s : State) : Vector (BitVec 11) 16 := s.ch

/-- `ST_UPDATE_LS` (R172). -/
def updateLinkStats (v : Vector Byte 10) (s : State) : State := { s with ls := v }

/-- `ST_READ_LS` (R173): a copy. -/
def readLinkStats (s : State) : Vector Byte 10 := s.ls

/-! The byte source and the byte sink. -/

/-- The environment presents bytes: the source holds them after those already there (R100). -/
def keepAtSource (bytes : List Byte) (s : State) : State := { s with src := s.src ++ bytes }

/-- The bytes the source still holds. -/
def setSource (bytes : List Byte) (s : State) : State := { s with src := bytes }

/-- `TX_WRITE` (46_host_ops.md R196). -/
def txWrite (bytes : List Byte) (s : State) : State := { s with tx := s.tx ++ bytes }

/-- `TXBUF` after the writes of a send (R194). -/
def setTxbuf (a : Memory) (s : State) : State := { s with txbuf := a }

/-! The receive sequencer's registers (10_state.md R20 to R23). -/

/-- `MemWrite(RXBUF, 0, b); RXN <- 1; RXS <- READ_LENGTH` (R102, R103). -/
def holdSync (b : Byte) (s : State) : State :=
  { s with rxbuf := s.rxbuf.write 0 b, rxn := 1, rxs := .readLength }

/-- `MemWrite(RXBUF, 1, b); RXLEN <- b; RXN <- 2; RXS <- AWAIT_BODY` (R103). -/
def holdLength (b : Byte) (s : State) : State :=
  { s with rxbuf := s.rxbuf.write 1 b, rxlen := b, rxn := 2, rxs := .awaitBody }

/-- `RXN <- 0; RXS <- SEEK_SYNC` (R103, R104). -/
def seekAgain (s : State) : State := { s with rxn := 0, rxs := .seekSync }

/-- `RXBUF` after a body byte has been stored (R104). -/
def setRxbuf (a : Memory) (s : State) : State := { s with rxbuf := a }

/-- `RXN <- n` (R104). -/
def setRxn (n : Nat) (s : State) : State := { s with rxn := n }

/-! Hardware reset (70_reset_and_hazards.md R230). -/

/-- Every piece of the engine's state at its value of R231. What was written to the output streams stays written, and
what the environment holds is not the engine's. -/
def hardwareReset (s : State) : State :=
  { State.reset with tx := s.tx, ev := s.ev, res := s.res, src := s.src, inbox := s.inbox }

end Sys2Proof.Machine
end

