-- ==== Sys2Proof/Machine/Operands.lean ====
section
/-! DEFINITION. The operand forms: the destination predicate and the checksum over a byte sequence read through a table
array. The forms a payload field takes are in Marshal.lean and Channels.lean, the destination's byte in Decode.lean. -/

namespace Sys2Proof.Machine

/-- `is_dest` (30_encoding.md R63). -/
def isDest (P : Params) (b : Byte) : Bool := b == P.destFc || b == P.destTx

/-- The fold of `CRC_SUM` from a running value (40_crc8.md R92): each byte through `T[crc ^ byte]`. -/
def crcFold (T : Memory) (crc : Byte) : List Byte → Except Fault Byte
  | [] => .ok crc
  | b :: bs =>
    match memRead .table T (crc ^^^ b).toNat with
    | .ok v => crcFold T v bs
    | .error f => .error f

/-- `CRC_SUM` (R92): the fold from 0, no reflection, no final XOR. -/
def crcSum (T : Memory) (bytes : List Byte) : Except Fault Byte := crcFold T 0 bytes

end Sys2Proof.Machine
end

