-- ==== Sys2Proof/Machine/Checksum.lean ====
section
/-! DEFINITION. The checksum engine's unit operations (40_crc8.md R90, R92): pure functions that hand back a result. -/

namespace Sys2Proof.Machine

/-- `CRC_BUILD` (R90). -/
def execCrcBuild (poly : Byte) (s : State) : Out := .next (give (.table (crcBuild poly)) s)

/-- `CRC_SUM` (R92), over the table it is given. -/
def execCrcSum (table : Vector Byte 256) (bytes : List Byte) (s : State) : Out :=
  withValue (crcSum (Memory.ofBytes table.toList) bytes) fun c => .next (give (.u8 c) s)

end Sys2Proof.Machine
end

