-- ==== Sys2Proof/Machine/Codecs.lean ====
section
/-! DEFINITION. The unit operations of the bit-unpacker, the marshaler and the payload codecs (42_bit_unpacker.md,
43_be_marshaler.md, 44_payload_codecs.md): pure functions that hand back a result and touch nothing else. -/

namespace Sys2Proof.Machine

/-- The result of an unpack: the value, or `shape_error`. -/
def unpacked {α : Type} (r : Option α) (k : α → Result) : Result :=
  match r with
  | some v => k v
  | none => .shapeError

/-- The result of a pack that may refuse: the bytes, or `refused(ERR_RANGE)`. -/
def packed (r : Option (List Byte)) : Result :=
  match r with
  | some bs => .bytes bs
  | none => .refused .range

/-- `CH_UNPACK` (R120). -/
def execChUnpack (p : Vector Byte 22) (s : State) : Out := .next (give (.ch (chUnpack p.toList)) s)

/-- `CH_PACK` (R122). -/
def execChPack (v : Vector (BitVec 16) 16) (s : State) : Out := .next (give (.bytes (chPack v)) s)

/-- `BE_GET16` (R130). -/
def execBeGet16 (b : List Byte) (o : Nat) (s : State) : Out := .next (give (.u16 (beRead16 b o)) s)

/-- `BE_GET24` (R131). -/
def execBeGet24 (b : List Byte) (o : Nat) (s : State) : Out := .next (give (.u24 (beRead24 b o)) s)

/-- `BE_GET32` (R132). -/
def execBeGet32 (b : List Byte) (o : Nat) (s : State) : Out := .next (give (.u32 (beRead32 b o)) s)

/-- `BE_PUT16` (R133). -/
def execBePut16 (v : BitVec 16) (s : State) : Out := .next (give (.bytes (bePut16 v)) s)

/-- `BE_PUT24` (R134). -/
def execBePut24 (v : BitVec 24) (s : State) : Out := .next (give (.bytes (bePut24 v)) s)

/-- `BE_PUT32` (R135). -/
def execBePut32 (v : BitVec 32) (s : State) : Out := .next (give (.bytes (bePut32 v)) s)

/-- `BE_GETS` (R136). -/
def execBeGets (w : Width) (b : List Byte) (o : Nat) (s : State) : Out :=
  .next (give (.i32 (beReads w b o)) s)

/-- `BE_PUTS` (R137). -/
def execBePuts (w : Width) (v : BitVec 32) (s : State) : Out := .next (give (.bytes (bePuts w v)) s)

/-- `BATTERY_UNPACK` (R141). -/
def execBatteryUnpack (p : List Byte) (s : State) : Out := .next (give (unpacked (batteryUnpack p) .battery) s)

/-- `BATTERY_PACK` (R142). -/
def execBatteryPack (x : Battery) (s : State) : Out := .next (give (.bytes (batteryPack x)) s)

/-- `GPS_UNPACK` (R143). -/
def execGpsUnpack (p : List Byte) (s : State) : Out := .next (give (unpacked (gpsUnpack p) .gps) s)

/-- `GPS_PACK` (R144). -/
def execGpsPack (x : Gps) (s : State) : Out := .next (give (.bytes (gpsPack x)) s)

/-- `RPM_UNPACK` (R145). -/
def execRpmUnpack (p : List Byte) (s : State) : Out := .next (give (unpacked (rpmUnpack p) .rpm) s)

/-- `RPM_PACK` (R146). -/
def execRpmPack (sourceId : Byte) (values : List (BitVec 32)) (s : State) : Out :=
  .next (give (packed (rpmPack sourceId values)) s)

/-- `TEMP_UNPACK` (R147). -/
def execTempUnpack (p : List Byte) (s : State) : Out := .next (give (unpacked (tempUnpack p) .temp) s)

/-- `TEMP_PACK` (R148). -/
def execTempPack (sourceId : Byte) (values : List (BitVec 16)) (s : State) : Out :=
  .next (give (packed (tempPack sourceId values)) s)

/-- `LINK_UNPACK` (R149). -/
def execLinkUnpack (p : List Byte) (s : State) : Out := .next (give (unpacked (linkUnpack p) .linkStatistics) s)

/-- `LINK_PACK` (R149). -/
def execLinkPack (ls : Vector Byte 10) (s : State) : Out := .next (give (.bytes (linkPack ls)) s)

end Sys2Proof.Machine
end

