-- ==== Sys2Proof/Machine/Flags.lean ====
section
/-! DEFINITION. The flags: `FS` with the watchdog that drives it (60_exceptions.md R215 to R219), and the guard `INITED`
(10_state.md R27). There is no other flag, condition code or predicate (R26, R139). -/

namespace Sys2Proof.Machine

/-- `FS_FEED` (R216): the flag is cleared and the one-shot timer restarted for the full window. -/
def feedWatchdog (P : Params) (s : State) : State :=
  { s with fs := false, wdtArmed := true, wdtCnt := P.timeoutTicks }

/-- `FS_EXPIRE` (R217). -/
def expireWatchdog (s : State) : State :=
  emitEvent .failsafe { s with fs := true, wdtArmed := false }

/-- `TICK` (R218). -/
def tickWatchdog (s : State) : State :=
  if s.wdtArmed then
    if s.wdtCnt = 1 then expireWatchdog s else { s with wdtCnt := s.wdtCnt - 1 }
  else s

/-- `FS_QUERY` (R219). -/
def failsafeQuery (s : State) : Bool := s.fs

end Sys2Proof.Machine
end

