-- ==== Sys2Proof/Machine/Failsafe.lean ====
section
/-! DEFINITION. The failsafe monitor's operations (60_exceptions.md R216 to R219). `TICK` is the timer agent's step; the
other three are unit operations. -/

namespace Sys2Proof.Machine

/-- `FS_FEED` (R216). -/
def execFsFeed (s : State) : Out := .next (feedWatchdog Config.params s)

/-- `FS_EXPIRE` (R217). -/
def execFsExpire (s : State) : Out := .next (expireWatchdog s)

/-- `TICK` (R218). -/
def execTick (s : State) : Out := .next (tickWatchdog s)

/-- `FS_QUERY` (R219). -/
def execFsQuery (s : State) : Out := .next (give (.bit (failsafeQuery s)) s)

end Sys2Proof.Machine
end

