-- ==== Sys2Proof/Machine/Receive.lean ====
section
/-! DEFINITION. The type-dispatched payload decoder (44_payload_codecs.md R150 to R155) and the receive sequencer that
calls it (41_frame_sync.md R101 to R108), over any parameters. -/

namespace Sys2Proof.Machine

/-- A decoded value goes on as its rule says, a shape error drops the frame (R150, R155). -/
def onValue {α : Type} (r : Option α) (type : Byte) (n : Nat) (k : α → State → State) (s : State) : State :=
  match r with
  | some v => k v s
  | none => raise (.errPayloadShape type n) s

/-- Acceptance of a channels frame (R151): store, watchdog and event in one step. -/
def acceptChannels (P : Params) (dest : Byte) (v : Vector (BitVec 11) 16) (s : State) : State :=
  emitEvent (.decChannels dest v) (feedWatchdog P (updateChannels v s))

/-- Acceptance of a link-statistics frame (R152). -/
def acceptLink (dest : Byte) (ls : Vector Byte 10) (s : State) : State :=
  emitEvent (.decLink dest ls) (updateLinkStats ls s)

/-- An unrecognised type (R154): the error event, then the generic value. -/
def acceptGeneric (dest type : Byte) (payload : List Byte) (s : State) : State :=
  emitEvent (.generic dest type payload) (raise (.errUnsupportedType type) s)

/-- `DISPATCH` (R150): the codec the `TYPE` byte selects, and where its value goes; battery, GPS, RPM and temperature
values leave on `EV` only (R153). -/
def dispatch (P : Params) (dest type : Byte) (payload : List Byte) (s : State) : State :=
  if type = P.typeChannels then
    onValue (channelsUnpack payload) type payload.length (acceptChannels P dest) s
  else if type = P.typeLink then
    onValue (linkUnpack payload) type payload.length (acceptLink dest) s
  else if type = P.typeBattery then
    onValue (batteryUnpack payload) type payload.length (fun x => emitEvent (.decBattery dest x)) s
  else if type = P.typeGps then
    onValue (gpsUnpack payload) type payload.length (fun x => emitEvent (.decGps dest x)) s
  else if type = P.typeRpm then
    onValue (rpmUnpack payload) type payload.length (fun x => emitEvent (.decRpm dest x)) s
  else if type = P.typeTemp then
    onValue (tempUnpack payload) type payload.length (fun x => emitEvent (.decTemp dest x)) s
  else acceptGeneric dest type payload s

/-- What `EMIT` does with a complete frame (R105, R106): with verification on, a checksum byte that differs from the one
computed drops the frame; every other frame is dispatched. -/
def judge (P : Params) (dest type : Byte) (payload : List Byte) (computed received : Byte) (s : State) : State :=
  if s.cfg.crcVerify = true ∧ computed ≠ received then raise (.errCrcMismatch computed received) s
  else dispatch P dest type payload s

/-- `EMIT` (R105), in the step that stored the last body byte: the frame is read out of `RXBUF`, checked and
dispatched, and the sequencer seeks the next frame whatever came of it (R104). -/
def emitFrame (P : Params) (s : State) : Out :=
  let L := s.rxlen.toNat
  withValue (memRead .rxbuf s.rxbuf 0) fun dest =>
  withValue (memRead .rxbuf s.rxbuf 2) fun type =>
  withValue (memReadFrom .rxbuf s.rxbuf 3 (L - 2)) fun payload =>
  withValue (memRead .rxbuf s.rxbuf (L + 1)) fun received =>
  withValue (crcSum s.table (type :: payload)) fun computed =>
    .next (seekAgain (judge P dest type payload computed received s))

/-- `RXS` = `SEEK_SYNC` (R102). -/
def rxSeek (P : Params) (b : Byte) (s : State) : State :=
  if isDest P b then holdSync b s else raise (.errDesyncSkip b) s

/-- `RXS` = `READ_LENGTH` (R103): a length in 2..62 is taken, any other byte is examined again as a sync byte. -/
def rxLength (P : Params) (b : Byte) (s : State) : State :=
  if Config.minLen ≤ b.toNat ∧ b.toNat ≤ Config.maxLen then holdLength b s
  else if isDest P b then holdSync b (raise (.errBadLength b) s)
  else seekAgain (raise (.errBadLength b) s)

/-- `RXS` = `AWAIT_BODY` (R104): the byte is stored unexamined, and the last one emits the frame. -/
def rxBody (P : Params) (b : Byte) (s : State) : Out :=
  withValue (memWrite .rxbuf s.rxbuf s.rxn b) fun buf =>
    if s.rxn + 1 = s.rxlen.toNat + 2 then emitFrame P (setRxbuf buf s)
    else .next (setRxn (s.rxn + 1) (setRxbuf buf s))

/-- One step of the receive sequencer on one byte (R101), with `INITED` = 1. -/
def rxStep (P : Params) (b : Byte) (s : State) : Out :=
  match s.rxs with
  | .seekSync => .next (rxSeek P b s)
  | .readLength => .next (rxLength P b s)
  | .awaitBody => rxBody P b s

/-- One step of the receive agent (R100, R101, R223): with `INITED` = 1 it takes the next byte the source holds, one byte
and no more; with none to take it waits (R227), and with `INITED` = 0 no `RX_BYTE` step exists and the bytes stay with the
source. -/
def takeByte (P : Params) (s : State) : Out :=
  if s.inited then
    match s.src with
    | [] => .next s
    | b :: rest => rxStep P b (setSource rest s)
  else .next s

/-- `n` steps of the receive agent with nothing between them, stopping at the first fault or refusal. -/
def receive (P : Params) : Nat → State → Out
  | 0, s => .next s
  | n + 1, s =>
    match takeByte P s with
    | .next t => receive P n t
    | .fault f => .fault f
    | .refused r => .refused r

/-- The steps of the receive agent until the source holds no byte. -/
def drain (P : Params) (s : State) : Out := receive P s.src.length s

/-- The environment presents bytes and the receive agent takes its next one; the rest wait for its later steps, between
which steps of other agents may fall (R108, 20_memory.md R50). -/
def offer (P : Params) (bytes : List Byte) (s : State) : Out := takeByte P (keepAtSource bytes s)

/-- A frame arriving on the serial side: its bytes are presented in order (R60, R107). -/
def receiveFrame (P : Params) (dest : Dest) (type : Byte) (payload : List Byte) (crc : Byte) (s : State) : Out :=
  offer P (frameBytes P dest type payload crc) s

end Sys2Proof.Machine
end

