-- ==== Sys2Proof/Machine/FrameCodec.lean ====
section
/-! DEFINITION. The frame codec's unit operations: `RX_BYTE`, `RX_CHUNK`, `FRAME_ENCODE` (41_frame_sync.md R101, R108,
R110), and the dispatcher presented as a unit operation (R150). -/

namespace Sys2Proof.Machine

/-- The frame of `FRAME_ENCODE` for a payload within the limit (R110): the checksum is read through `TABLE`. -/
def assembleFrame (T : Memory) (dest type : Byte) (payload : List Byte) : Except Fault (List Byte) :=
  match crcSum T (type :: payload) with
  | .ok c => .ok ([dest, BitVec.ofNat 8 (payload.length + 2), type] ++ payload ++ [c])
  | .error f => .error f

/-- `RX_BYTE` (R101): the byte is presented, and one step of the receive agent takes the next byte of the stream, which is
this one unless earlier bytes still wait. -/
def execRxByte (b : Byte) (s : State) : Out := offer Config.params [b] s

/-- `RX_CHUNK` (R108): the bytes are presented, and this step is the `RX_BYTE` of the first; the others are later steps of
the receive agent. The empty chunk does nothing. -/
def execRxChunk (bytes : List Byte) (s : State) : Out :=
  if bytes.isEmpty then .next s else offer Config.params bytes s

/-- `FRAME_ENCODE` (R110): it requires `INITED` = 1 and never answers part of a frame. -/
def execFrameEncode (dest type : Byte) (payload : List Byte) (s : State) : Out :=
  if s.inited = false then .fault .requiresInit
  else if Config.maxPayload < payload.length then
    .next (give (.error .encodingLimit) (raise (.errEncodingLimit payload.length) s))
  else withValue (assembleFrame s.table dest type payload) fun f => .next (give (.bytes f) s)

/-- `DISPATCH` (R150). -/
def execDispatch (dest type : Byte) (payload : List Byte) (s : State) : Out :=
  .next (dispatch Config.params dest type payload s)

end Sys2Proof.Machine
end

