-- ==== Sys2Proof/Machine/Frames.lean ====
section
/-! DEFINITION. The meanings of the frame rows (30_encoding.md R65): a frame of that type arriving on the serial side.
Its bytes are presented in order and this step is the `RX_BYTE` of the first (41_frame_sync.md R100, R107); the receive
agent's later steps take the others, and the step of the last one checks the frame and does what its type byte selects
(R104, R105, log 8). A sequencer that is inside another frame takes them as that frame's body, as the engine does. -/

namespace Sys2Proof.Machine

/-- `GPS` (R143, R153). -/
def execGps (dest : Dest) (payload : List Byte) (crc : Byte) (s : State) : Out :=
  receiveFrame Config.params dest Config.params.typeGps payload crc s

/-- `BATTERY` (R141, R153). -/
def execBattery (dest : Dest) (payload : List Byte) (crc : Byte) (s : State) : Out :=
  receiveFrame Config.params dest Config.params.typeBattery payload crc s

/-- `RPM` (R145, R153). -/
def execRpm (dest : Dest) (payload : List Byte) (crc : Byte) (s : State) : Out :=
  receiveFrame Config.params dest Config.params.typeRpm payload crc s

/-- `TEMP` (R147, R153). -/
def execTemp (dest : Dest) (payload : List Byte) (crc : Byte) (s : State) : Out :=
  receiveFrame Config.params dest Config.params.typeTemp payload crc s

/-- `LINK` (R149, R152). -/
def execLink (dest : Dest) (payload : List Byte) (crc : Byte) (s : State) : Out :=
  receiveFrame Config.params dest Config.params.typeLink payload crc s

/-- `CHANNELS` (R140, R151). -/
def execChannels (dest : Dest) (payload : List Byte) (crc : Byte) (s : State) : Out :=
  receiveFrame Config.params dest Config.params.typeChannels payload crc s

/-- `GENERIC` (R154): any other type byte. -/
def execGeneric (dest : Dest) (type : Byte) (payload : List Byte) (crc : Byte) (s : State) : Out :=
  receiveFrame Config.params dest type payload crc s

end Sys2Proof.Machine
end

