-- ==== Sys2Proof/Machine/HostOps.lean ====
section
/-! DEFINITION. The host operations (46_host_ops.md R185 to R197). -/

namespace Sys2Proof.Machine

/-- An error of a host operation: the event, and `error(code)` to the caller (R201). -/
def failWith (e : Event) (code : ErrCode) (s : State) : Out := .next (give (.error code) (raise e s))

/-- `SEND` (R194): nothing is written before the frame stands whole in `TXBUF`, and its bytes are then read back in
order into the sink (R57 (e), R196). `op` is the operation's code, which its error event carries. -/
def sendFrame (P : Params) (op : BitVec 6) (dest : Dest) (type : Byte) (payload : List Byte) (s : State) : Out :=
  if s.inited = false then failWith (.errNotInitialised op) .notInitialised s
  else if Config.maxPayload < payload.length then failWith (.errEncodingLimit payload.length) .encodingLimit s
  else
    withValue (assembleFrame s.table (dval P dest) type payload) fun f =>
    withValue (memWriteFrom .txbuf s.txbuf 0 f) fun buf =>
    withValue (memReadFrom .txbuf buf 0 f.length) fun out =>
      .next (give .ok (txWrite out (setTxbuf buf s)))

/-- A send whose payload pack may refuse (R192, R193): `INITED` first, then the range, then the frame (R212). -/
def sendPacked (P : Params) (op : BitVec 6) (dest : Dest) (type : Byte) (payload : Option (List Byte)) (s : State) :
    Out :=
  if s.inited = false then failWith (.errNotInitialised op) .notInitialised s
  else
    match payload with
    | none => failWith (.errRange op) .range s
    | some p => sendFrame P op dest type p s

/-- What the first `INIT` leaves (R186): configuration, table, monitor and sequencer set up, `CH` and `LS` untouched. -/
def setUp (poly : Byte) (crcVerify : Bool) (s : State) : State :=
  { s with
    cfg := ⟨poly, crcVerify⟩
    table := crcTable poly
    fs := true
    wdtArmed := false
    rxs := .seekSync
    rxn := 0
    inited := true }

/-- `INIT` (R186): idempotent. -/
def execInit (poly : Byte) (crcVerify : Bool) (s : State) : Out :=
  .next (give .ok (if s.inited then s else setUp poly crcVerify s))

/-- `RECEIVE_CHANNELS` (R187). -/
def execReceiveChannels (s : State) : Out :=
  .next (give (.channelData (vecMap (BitVec.setWidth 16) (readChannels s))) s)

/-- `GET_LINK_STATISTICS` (R188). -/
def execGetLinkStatistics (s : State) : Out := .next (give (.linkStatistics (readLinkStats s)) s)

/-- `IS_FAILSAFE` (R189). -/
def execIsFailsafe (s : State) : Out := .next (give (.bit (failsafeQuery s)) s)

/-- `SEND_BATTERY` (R190). -/
def execSendBattery (dest : Dest) (x : Battery) (s : State) : Out :=
  sendFrame Config.params 0x04 dest Config.params.typeBattery (batteryPack x) s

/-- `SEND_GPS` (R191). -/
def execSendGps (dest : Dest) (x : Gps) (s : State) : Out :=
  sendFrame Config.params 0x05 dest Config.params.typeGps (gpsPack x) s

/-- `SEND_RPM` (R192). -/
def execSendRpm (dest : Dest) (sourceId : Byte) (values : List (BitVec 32)) (s : State) : Out :=
  sendPacked Config.params 0x06 dest Config.params.typeRpm (rpmPack sourceId values) s

/-- `SEND_TEMP` (R193). -/
def execSendTemp (dest : Dest) (sourceId : Byte) (values : List (BitVec 16)) (s : State) : Out :=
  sendPacked Config.params 0x07 dest Config.params.typeTemp (tempPack sourceId values) s

/-- A reserved code on the host port (R195). -/
def execReservedOp (op : BitVec 6) (s : State) : Out := failWith (.errBadOp op) .badOp s

end Sys2Proof.Machine
end

