-- ==== Sys2Proof/Machine/Store.lean ====
section
/-! DEFINITION. The four operations of the snapshot register file presented as unit operations (45_snapshot_regfile.md
R170 to R173). -/

namespace Sys2Proof.Machine

/-- `ST_UPDATE_CH` (R170). -/
def execStUpdateCh (v : Vector (BitVec 11) 16) (s : State) : Out := .next (updateChannels v s)

/-- `ST_READ_CH` (R171). -/
def execStReadCh (s : State) : Out := .next (give (.ch (readChannels s)) s)

/-- `ST_UPDATE_LS` (R172). -/
def execStUpdateLs (ls : Vector Byte 10) (s : State) : Out := .next (updateLinkStats ls s)

/-- `ST_READ_LS` (R173). -/
def execStReadLs (s : State) : Out := .next (give (.linkStatistics (readLinkStats s)) s)

end Sys2Proof.Machine
end

