-- ==== Sys2Proof/Machine/Dispatch.lean ====
section
/-! DEFINITION. One arm for each operation: the meaning of every row of spec/opcode_table.json. -/

namespace Sys2Proof.Machine

def exec (i : Instr) (s : State) : Host.Outcome State Fault Refusal :=
  match i with
  -- frame types (R65)
  | .gps dest payload crc => Sys2Proof.Machine.execGps dest payload crc s
  | .battery dest payload crc => Sys2Proof.Machine.execBattery dest payload crc s
  | .rpm dest payload crc => Sys2Proof.Machine.execRpm dest payload crc s
  | .temp dest payload crc => Sys2Proof.Machine.execTemp dest payload crc s
  | .link dest payload crc => Sys2Proof.Machine.execLink dest payload crc s
  | .channels dest payload crc => Sys2Proof.Machine.execChannels dest payload crc s
  | .generic dest type payload crc => Sys2Proof.Machine.execGeneric dest type payload crc s
  -- host operations (R75)
  | .init poly crcVerify => Sys2Proof.Machine.execInit poly crcVerify s
  | .receiveChannels => Sys2Proof.Machine.execReceiveChannels s
  | .getLinkStatistics => Sys2Proof.Machine.execGetLinkStatistics s
  | .isFailsafe => Sys2Proof.Machine.execIsFailsafe s
  | .sendBattery dest value => Sys2Proof.Machine.execSendBattery dest value s
  | .sendGps dest value => Sys2Proof.Machine.execSendGps dest value s
  | .sendRpm dest sourceId values => Sys2Proof.Machine.execSendRpm dest sourceId values s
  | .sendTemp dest sourceId values => Sys2Proof.Machine.execSendTemp dest sourceId values s
  | .reservedOp op => Sys2Proof.Machine.execReservedOp op s
  -- unit operations (R76)
  | .crcBuild poly => Sys2Proof.Machine.execCrcBuild poly s
  | .crcSum table bytes => Sys2Proof.Machine.execCrcSum table bytes s
  | .rxByte b => Sys2Proof.Machine.execRxByte b s
  | .rxChunk bytes => Sys2Proof.Machine.execRxChunk bytes s
  | .frameEncode dest type payload => Sys2Proof.Machine.execFrameEncode dest type payload s
  | .chUnpack p => Sys2Proof.Machine.execChUnpack p s
  | .chPack v => Sys2Proof.Machine.execChPack v s
  | .beGet16 b o => Sys2Proof.Machine.execBeGet16 b o s
  | .beGet24 b o => Sys2Proof.Machine.execBeGet24 b o s
  | .beGet32 b o => Sys2Proof.Machine.execBeGet32 b o s
  | .bePut16 v => Sys2Proof.Machine.execBePut16 v s
  | .bePut24 v => Sys2Proof.Machine.execBePut24 v s
  | .bePut32 v => Sys2Proof.Machine.execBePut32 v s
  | .beGets w b o => Sys2Proof.Machine.execBeGets w b o s
  | .bePuts w v => Sys2Proof.Machine.execBePuts w v s
  | .batteryUnpack p => Sys2Proof.Machine.execBatteryUnpack p s
  | .batteryPack value => Sys2Proof.Machine.execBatteryPack value s
  | .gpsUnpack p => Sys2Proof.Machine.execGpsUnpack p s
  | .gpsPack value => Sys2Proof.Machine.execGpsPack value s
  | .rpmUnpack p => Sys2Proof.Machine.execRpmUnpack p s
  | .rpmPack sourceId values => Sys2Proof.Machine.execRpmPack sourceId values s
  | .tempUnpack p => Sys2Proof.Machine.execTempUnpack p s
  | .tempPack sourceId values => Sys2Proof.Machine.execTempPack sourceId values s
  | .linkUnpack p => Sys2Proof.Machine.execLinkUnpack p s
  | .linkPack ls => Sys2Proof.Machine.execLinkPack ls s
  | .dispatch dest type payload => Sys2Proof.Machine.execDispatch dest type payload s
  | .stUpdateCh v => Sys2Proof.Machine.execStUpdateCh v s
  | .stReadCh => Sys2Proof.Machine.execStReadCh s
  | .stUpdateLs ls => Sys2Proof.Machine.execStUpdateLs ls s
  | .stReadLs => Sys2Proof.Machine.execStReadLs s
  | .fsFeed => Sys2Proof.Machine.execFsFeed s
  | .fsExpire => Sys2Proof.Machine.execFsExpire s
  | .tick => Sys2Proof.Machine.execTick s
  | .fsQuery => Sys2Proof.Machine.execFsQuery s

end Sys2Proof.Machine
end

