-- ==== Sys2Proof/Machine/Step.lean ====
section
/-! DEFINITION. One step of the machine. The environment, the hosts and the timer choose one total order of steps
(20_memory.md R50); `inbox` holds the steps still to come, and a step takes the first. -/

namespace Sys2Proof.Machine

/-- The step of one entry: hardware reset (R230), the receive agent's next byte (R101), or the operation its bytes encode
at its port. -/
def runEntry (e : Entry) (s : State) : Host.Outcome State Fault Refusal :=
  match e with
  | .reset => .next (hardwareReset s)
  | .receive => takeByte Config.params s
  | .request port bytes =>
    match decode Config.params port bytes with
    | .ok i => exec i s
    | .error err => .refused (.undecodable err)

/-- One step. With no entry to come, the receive agent takes the bytes that wait, one a step, and waits when there are none
(60_exceptions.md R223, R227): the engine never halts by itself (R242). -/
def step (s : State) : Host.Outcome State Fault Refusal :=
  match s.inbox with
  | [] => takeByte Config.params s
  | e :: rest => runEntry e { s with inbox := rest }

/-- The state in which the next step runs the instruction of a table word: its request is put first. -/
def State.withFetchWord (s : State) (nbits w : Nat) : State :=
  { s with inbox := .request (tableRequest nbits w).1 (tableRequest nbits w).2 :: s.inbox }

end Sys2Proof.Machine
end

