-- ==== Sys2Proof/Machine/Cursor.lean ====
section
/-! DEFINITION. The source's decode algorithm as a cursor over a buffer (41_frame_sync.md R107), the clear form beside
the byte-serial sequencer of Receive.lean; no step of the machine runs it. -/

namespace Sys2Proof.Machine

/-- The cursor scan of R107 over a whole input: it goes on at the next byte after a byte that is no destination and after
a bad length, defers on an incomplete frame, and otherwise takes the frame and goes on after it whether or not the
checksum matched. The first argument bounds the scan; the input's length is enough. -/
def cursorRun (P : Params) : Nat → List Byte → State → State
  | 0, _, s => s
  | _ + 1, [], s => s
  | n + 1, dest :: rest, s =>
    if isDest P dest then
      match rest with
      | [] => s
      | len :: body =>
        if len.toNat < Config.minLen ∨ Config.maxLen < len.toNat then cursorRun P n rest s
        else if body.length < len.toNat then s
        else
          let type := byteAt body 0
          let payload := (body.drop 1).take (len.toNat - 2)
          let received := byteAt body (len.toNat - 1)
          cursorRun P n (body.drop len.toNat)
            (judge P dest type payload (crcBitwise s.cfg.poly (type :: payload)) received s)
    else cursorRun P n rest s

end Sys2Proof.Machine
end

