-- ==== Sys2Proof/Safety.lean ====
section
/-! DEFINITION. What counts as a sound state and a run of the hardware, in the terms the statements use. -/

namespace Sys2Proof.Machine

/-- The operations that are steps of an agent (00_scope.md R7): the bytes the receive agent takes, the timer's `TICK`,
and everything a host caller can present. The other unit operations are the inside of such a step. -/
def agentStep : Instr → Bool
  | .gps _ _ _ => true
  | .battery _ _ _ => true
  | .rpm _ _ _ => true
  | .temp _ _ _ => true
  | .link _ _ _ => true
  | .channels _ _ _ => true
  | .generic _ _ _ _ => true
  | .init _ _ => true
  | .receiveChannels => true
  | .getLinkStatistics => true
  | .isFailsafe => true
  | .sendBattery _ _ => true
  | .sendGps _ _ => true
  | .sendRpm _ _ _ => true
  | .sendTemp _ _ _ => true
  | .reservedOp _ => true
  | .crcBuild _ => false
  | .crcSum _ _ => false
  | .rxByte _ => true
  | .rxChunk _ => true
  | .frameEncode _ _ _ => false
  | .chUnpack _ => false
  | .chPack _ => false
  | .beGet16 _ _ => false
  | .beGet24 _ _ => false
  | .beGet32 _ _ => false
  | .bePut16 _ => false
  | .bePut24 _ => false
  | .bePut32 _ => false
  | .beGets _ _ _ => false
  | .bePuts _ _ => false
  | .batteryUnpack _ => false
  | .batteryPack _ => false
  | .gpsUnpack _ => false
  | .gpsPack _ => false
  | .rpmUnpack _ => false
  | .rpmPack _ _ => false
  | .tempUnpack _ => false
  | .tempPack _ _ => false
  | .linkUnpack _ => false
  | .linkPack _ => false
  | .dispatch _ _ _ => false
  | .stUpdateCh _ => false
  | .stReadCh => false
  | .stUpdateLs _ => false
  | .stReadLs => false
  | .fsFeed => false
  | .fsExpire => false
  | .tick => true
  | .fsQuery => false

/-- What the next step takes is hardware reset, a step of the receive agent (also with no entry to come), or an operation
that is a step of an agent. -/
def agentNext (s : State) : Bool :=
  match s.inbox with
  | [] => true
  | .reset :: _ => true
  | .receive :: _ => true
  | .request port bytes :: _ =>
    match decode Config.params port bytes with
    | .ok i => agentStep i
    | .error _ => false

/-- The invariants of every step, whatever unit operation it presents (10_state.md R28, R34; 20_memory.md R40). -/
structure EngineInv (s : State) : Prop where
  /-- Every storage array is in its canonical form and inside its index range. -/
  tableForm : s.table.wf = true ∧ s.table.below (arraySize .table) = true
  rxbufForm : s.rxbuf.wf = true ∧ s.rxbuf.below (arraySize .rxbuf) = true
  txbufForm : s.txbuf.wf = true ∧ s.txbuf.below (arraySize .txbuf) = true
  /-- `RXS = SEEK_SYNC` iff `RXN = 0`; `RXS = READ_LENGTH` iff `RXN = 1` (R34). -/
  seeking : s.rxs = .seekSync ↔ s.rxn = 0
  lengthNext : s.rxs = .readLength ↔ s.rxn = 1
  /-- Outside `SEEK_SYNC` the buffer starts with a destination value (R34). -/
  syncHeld : s.rxs ≠ .seekSync → (s.rxbuf.read 0).any (isDest Config.params) = true
  /-- While the body is awaited the length is in its bounds, stands in the buffer, and bounds `RXN` (R34). -/
  bodyBounds : s.rxs = .awaitBody →
    2 ≤ s.rxlen.toNat ∧ s.rxlen.toNat ≤ 62 ∧ 2 ≤ s.rxn ∧ s.rxn ≤ s.rxlen.toNat + 1 ∧ s.rxbuf.read 1 = some s.rxlen
  /-- Every buffer element below `RXN` has been written (R23). -/
  heldWritten : ∀ k, k < s.rxn → (s.rxbuf.read k).isSome = true
  /-- The watchdog (R28). -/
  armed : s.wdtArmed = true → 1 ≤ s.wdtCnt ∧ s.wdtCnt ≤ Config.params.timeoutTicks ∧ s.fs = false
  disarmed : s.wdtArmed = false → s.fs = true
  /-- With `INITED` = 1 the table is the one of `CFG.POLY` (R25, R54). -/
  tableBuilt : s.inited = true → s.table = crcTable s.cfg.poly

/-- Before `INIT` the engine stands at its reset values (R34, 46_host_ops.md R197). -/
structure QuietBeforeInit (s : State) : Prop where
  sequencer : s.inited = false → s.rxs = .seekSync ∧ s.rxn = 0
  registers : s.inited = false → s.ch = Vector.replicate 16 0 ∧ s.ls = Vector.replicate 10 0
  monitor : s.inited = false → s.fs = true ∧ s.wdtArmed = false

/-- The state without the elements no rule reads before writing them (70_reset_and_hazards.md R231): `WDT_CNT` while
disarmed, `RXLEN` outside `AWAIT_BODY`, `RXBUF` from `RXN` on, `TXBUF`, and `TABLE` and `CFG` before `INIT`. -/
def live (s : State) : State :=
  { s with
    wdtCnt := if s.wdtArmed then s.wdtCnt else 0
    rxlen := if s.rxs = .awaitBody then s.rxlen else 0
    rxbuf := s.rxbuf.filter fun c => decide (c.1 < s.rxn)
    txbuf := []
    table := if s.inited then s.table else []
    cfg := if s.inited then s.cfg else ⟨0, false⟩ }

/-- Two outcomes agree on everything that is ever read: the same stop, or next states with the same live part. -/
def SameLive : Out → Out → Prop
  | .next a, .next b => live a = live b
  | .fault f, .fault g => f = g
  | .refused r, .refused q => r = q
  | _, _ => False

/-- The steps of a row of operations, stopping at the first fault or refusal. -/
def execAll : List Instr → State → Out
  | [], s => .next s
  | i :: is, s =>
    match exec i s with
    | .next t => execAll is t
    | .fault f => .fault f
    | .refused r => .refused r

/-- One outcome after another, stopping at the first fault or refusal. -/
def andThen (x : Out) (k : State → Out) : Out :=
  match x with
  | .next t => k t
  | .fault f => .fault f
  | .refused r => .refused r

/-- A receive agent ready for a new frame: initialised, in `SEEK_SYNC`, no byte waiting at the source. -/
structure ReadyToReceive (s : State) : Prop where
  sound : EngineInv s
  inited : s.inited = true
  seeking : s.rxs = .seekSync
  sourceEmpty : s.src = []

/-- Reception of a whole frame from `SEEK_SYNC` up to its last byte: the frame stands in `RXBUF`, its length in
`RXLEN` (R102 to R104), and the sequencer is back in `SEEK_SYNC`. -/
def frameTaken (frame : List Byte) (s : State) : State :=
  { s with rxbuf := s.rxbuf.writeFrom 0 frame, rxlen := byteAt frame 1 }

/-- A send that wrote a frame (R194): the frame stands in `TXBUF` from element 0 on and on `TX`, the caller has `ok`. -/
def frameSent (frame : List Byte) (s : State) : State :=
  { s with txbuf := s.txbuf.writeFrom 0 frame, tx := s.tx ++ frame, res := s.res ++ [.ok] }

/-- The frame `FRAME_ENCODE` gives in this state (R110): its checksum is the one of `CFG.POLY`. -/
def encodedFrame (dest : Dest) (type : Byte) (payload : List Byte) (s : State) : List Byte :=
  frameBytes Config.params dest type payload (crcBitwise s.cfg.poly (type :: payload))

/-- The index of `RXBUF` at which a step of the sequencer stores the byte it takes (R102 to R104, R57 (c)). -/
def storedAt (b : Byte) (s : State) : Option Nat :=
  match s.rxs with
  | .seekSync => if isDest Config.params b then some 0 else none
  | .readLength =>
    if Config.minLen ≤ b.toNat ∧ b.toNat ≤ Config.maxLen then some 1
    else if isDest Config.params b then some 0 else none
  | .awaitBody => some s.rxn

/-- The checksum byte that `CRC_VERIFY` = 1 asks of a frame (R106). -/
def crcAccepted (type : Byte) (payload : List Byte) (crc : Byte) (s : State) : Bool :=
  !s.cfg.crcVerify || crcBitwise s.cfg.poly (type :: payload) == crc

/-- An event the scan alone produces, with no frame taken: a skipped byte or a rejected length. -/
def scanEvent : Event → Bool
  | .errDesyncSkip _ => true
  | .errBadLength _ => true
  | _ => false

/-- The channel record of the last `EV_DEC_CHANNELS` of a row of events, or `start` where there is none. -/
def lastChannels (start : Vector (BitVec 11) 16) (evs : List Event) : Vector (BitVec 11) 16 :=
  evs.foldl (fun v e => match e with
    | .decChannels _ w => w
    | _ => v) start

/-- The record of the last `EV_DEC_LINK` of a row of events, or `start` where there is none. -/
def lastLink (start : Vector Byte 10) (evs : List Event) : Vector Byte 10 :=
  evs.foldl (fun v e => match e with
    | .decLink _ w => w
    | _ => v) start

/-- Whether a row of events holds an accepted channels frame. -/
def feeds (evs : List Event) : Bool :=
  evs.any fun e => match e with
    | .decChannels _ _ => true
    | _ => false

/-- What one step of an agent does to the registers a host reads: with the events `new` it appended, `CH` and `LS` are the
records of the last accepted frames among them, or unchanged; `FS` falls only with an accepted channels frame and is 0
after one; and `FS` rises only by expiry, or where `setUp` says that the monitor is set up. -/
def FollowsFrames (setUp : Prop) (s t : State) : Prop :=
  ∃ new, t.ev = s.ev ++ new ∧ t.ch = lastChannels s.ch new ∧ t.ls = lastLink s.ls new ∧
    (s.fs = true → t.fs = false → feeds new = true) ∧
    (feeds new = true → t.fs = false) ∧
    (s.fs = false → t.fs = true → .failsafe ∈ new ∨ setUp)

end Sys2Proof.Machine
end

