-- ==== Sys2Proof/Certificates/Slice0/Obligations.lean ====
section
/-! DEFINITION. The statements about the machine, each a proposition that some later file proves or refutes. -/

open Sys2Proof Sys2Proof.Machine

/-! ## Encodings -/

/-- Decoding an encoded well-formed instruction at its port gives it back, for every admissible choice of the
parameters and every operand the encoding admits. The frame format is R60's, the codes are R75's and R76's; the operand
layout of the host and unit operations is the model's own (log 5). -/
def Obligations.DecodeOfEncodeIsTheInstr : Prop :=
  ∀ (P : Params) (i : Instr), P.ok = true → i.wf P = true → decode P (portOf i) (encode P i) = .ok i

/-- Words written out from the spec decode to what they stand for: a frame of each row of R65 (V43, V40, V19b, V59, V60 of
95_test_vectors.md, and the frames of R192 and R193), codes of R75 and identifiers of R76. The destination and type bytes
are the defaults (log 1), and the operand bytes after a code stand in the model's own layout (log 5). -/
def Obligations.SpecWordsDecodeToTheirRows : Prop :=
  decode Config.params .serial [0xC8, 0x0A, 0x08, 0x00, 0xA8, 0x00, 0x19, 0x00, 0x05, 0xDC, 0x57, 0x20] =
      .ok (.battery .fc [0x00, 0xA8, 0x00, 0x19, 0x00, 0x05, 0xDC, 0x57] 0x20) ∧
  decode Config.params .serial [0xEA, 0x0C, 0x14, 0x28, 0x2A, 0x64, 0x0A, 0x00, 0x02, 0x03, 0x32, 0x63, 0xFB, 0xB0] =
      .ok (.link .tx [0x28, 0x2A, 0x64, 0x0A, 0x00, 0x02, 0x03, 0x32, 0x63, 0xFB] 0xB0) ∧
  decode Config.params .serial [0xC8, 0x05, 0x7F, 0x01, 0x02, 0x03, 0x86] =
      .ok (.generic .fc 0x7F [0x01, 0x02, 0x03] 0x86) ∧
  decode Config.params .serial [0xC8, 0x06, 0x0C, 0x00, 0xFF, 0xFC, 0x18, 0x60] =
      .ok (.rpm .fc [0x00, 0xFF, 0xFC, 0x18] 0x60) ∧
  decode Config.params .serial
      [0xEA, 0x0D, 0x0D, 0x02, 0x00, 0xFA, 0xFF, 0xC9, 0x00, 0x00, 0x80, 0x00, 0x7F, 0xFF, 0x4B] =
      .ok (.temp .tx [0x02, 0x00, 0xFA, 0xFF, 0xC9, 0x00, 0x00, 0x80, 0x00, 0x7F, 0xFF] 0x4B) ∧
  decode Config.params .serial
      [0xC8, 0x11, 0x02, 0x1E, 0xB3, 0x67, 0xD0, 0xFF, 0xEC, 0x7F, 0xD0, 0x00, 0x7B, 0x23, 0x28, 0x04, 0x0B, 0x0C, 0x87] =
      .ok (.gps .fc [0x1E, 0xB3, 0x67, 0xD0, 0xFF, 0xEC, 0x7F, 0xD0, 0x00, 0x7B, 0x23, 0x28, 0x04, 0x0B, 0x0C] 0x87) ∧
  decode Config.params .serial
      [0xC8, 0x18, 0x16, 0xE0, 0x03, 0x1F, 0xF8, 0xC0, 0x07, 0x3E, 0xF0, 0x81, 0x0F, 0x7C,
        0xE0, 0x03, 0x1F, 0xF8, 0xC0, 0x07, 0x3E, 0xF0, 0x81, 0x0F, 0x7C, 0xAD] =
      .ok (.channels .fc [0xE0, 0x03, 0x1F, 0xF8, 0xC0, 0x07, 0x3E, 0xF0, 0x81, 0x0F, 0x7C,
        0xE0, 0x03, 0x1F, 0xF8, 0xC0, 0x07, 0x3E, 0xF0, 0x81, 0x0F, 0x7C] 0xAD) ∧
  decode Config.params .host [0x00, 0xD5, 0x01] = .ok (.init 0xD5 true) ∧
  decode Config.params .host [0x01] = .ok .receiveChannels ∧
  decode Config.params .host [0x02] = .ok .getLinkStatistics ∧
  decode Config.params .host [0x03] = .ok .isFailsafe ∧
  decode Config.params .unit [0x12, 0xC8] = .ok (.rxByte 0xC8) ∧
  decode Config.params .unit [0x1A, 0x12, 0x34] = .ok (.bePut16 0x1234) ∧
  decode Config.params .unit [0x2A, 0xC8, 0x7F] = .ok (.dispatch 0xC8 0x7F []) ∧
  decode Config.params .unit [0x31] = .ok .stReadCh ∧
  decode Config.params .unit [0x3A] = .ok .tick ∧
  decode Config.params .unit [0x3B] = .ok .fsQuery

/-- R195: a code 0x08 to 0x3F at the host port, whatever operands follow it, is a reserved operation. -/
def Obligations.ReservedHostCodesAreRefusedByName : Prop :=
  ∀ (code : Byte) (args : List Byte) (s : State), 8 ≤ code.toNat → code.toNat < 64 →
    decode Config.params .host (code :: args) = .ok (.reservedOp (code.setWidth 6)) ∧
    exec (.reservedOp (code.setWidth 6)) s =
      .next { s with ev := s.ev ++ [.errBadOp (code.setWidth 6)], res := s.res ++ [.error .badOp] }

/-! ## Steps, reset, invariants -/

/-- A step runs the decoded instruction: when the next entry's bytes decode to `i` at their port, the step is `exec i`
with that entry taken. A hardware reset is a step of its own, and so is the receive agent's step on the next byte that
waits, which it also takes with no entry to come (R223, R227). The model's own: that the order R50 speaks of is the list
of entries (log 12), and that bytes which are no operation of their port are refused by name (log 16). -/
def Obligations.StepRunsTheDecodedInstr : Prop :=
  ∀ (s : State) (rest : List Entry),
    (∀ port bytes i, s.inbox = .request port bytes :: rest → decode Config.params port bytes = .ok i →
      step s = exec i { s with inbox := rest }) ∧
    (∀ port bytes e, s.inbox = .request port bytes :: rest → decode Config.params port bytes = .error e →
      step s = .refused (.undecodable e)) ∧
    (s.inbox = .reset :: rest → step s = .next (hardwareReset { s with inbox := rest })) ∧
    (s.inbox = .receive :: rest → step s = takeByte Config.params { s with inbox := rest }) ∧
    (s.inbox = [] → step s = takeByte Config.params s) ∧
    (s.inbox = [] → (s.inited = false ∨ s.src = []) → step s = .next s)

/-- R230, R231: from any state, reset puts the registers the spec gives a value at that value and recalls nothing of the
output streams. The values R231 leaves unspecified are not in this statement. -/
def Obligations.ResetLeavesTheStatedValues : Prop :=
  ∀ (s : State) (rest : List Entry), s.inbox = .reset :: rest →
    ∃ t, step s = .next t ∧ t.ch = Vector.replicate 16 0 ∧ t.ls = Vector.replicate 10 0 ∧ t.fs = true ∧
      t.wdtArmed = false ∧ t.inited = false ∧ t.rxs = .seekSync ∧ t.rxn = 0 ∧
      t.tx = s.tx ∧ t.ev = s.ev ∧ t.res = s.res ∧ t.inbox = rest

/-- The state after reset meets the invariants. -/
def Obligations.ResetMeetsTheInvariants : Prop :=
  EngineInv State.reset ∧ QuietBeforeInit State.reset

/-- R28, R34: every step that goes on, of an agent or of a unit presented alone, keeps the invariants: the arrays'
canonical form, the sequencer's relations, the watchdog's, and the table of `CFG.POLY`. -/
def Obligations.EveryStepKeepsTheInvariants : Prop :=
  ∀ s t : State, EngineInv s → step s = .next t → EngineInv t

/-- R34, R197: before `INIT` every step of an agent leaves the engine at its reset values. -/
def Obligations.AgentStepsKeepQuietBeforeInit : Prop :=
  ∀ s t : State, QuietBeforeInit s → agentNext s = true → step s = .next t → QuietBeforeInit t

/-- R101, R214, R242: from every sound state every step of an agent, whatever byte arrives and whatever a host presents,
is taken: no step of the hardware ends in a fault or a refusal. -/
def Obligations.AgentStepsNeverStop : Prop :=
  ∀ s : State, EngineInv s → agentNext s = true → ∃ t, step s = .next t

/-- R231: no result depends on an element that reset leaves unspecified, nor on a leftover in a buffer. Two sound states
that agree on everything else step to the same stop, or to states that again agree on everything else. -/
def Obligations.UnspecifiedElementsAreNeverRead : Prop :=
  ∀ s t : State, EngineInv s → EngineInv t → live s = live t → SameLive (step s) (step t)

/-- R30: the output streams and the results are append-only, whatever operation is executed. -/
def Obligations.OutputStreamsOnlyGrow : Prop :=
  ∀ (i : Instr) (s t : State), exec i s = .next t → s.tx <+: t.tx ∧ s.ev <+: t.ev ∧ s.res <+: t.res

/-- R13, R151, R152, R177, R186, R217, R222: over every step of an agent the channel registers are those of the last
accepted channels frame of that step, or unchanged; likewise the link statistics; `FS` falls with an accepted channels
frame and with nothing else, and is 0 after one; and it rises only by expiry (`TICK`) or the first `INIT`. -/
def Obligations.RegistersFollowTheAcceptedFrames : Prop :=
  ∀ (s t : State),
    (∀ i, agentStep i = true → exec i s = .next t →
      FollowsFrames (s.inited = false ∧ ∃ poly v, i = .init poly v) s t) ∧
    (takeByte Config.params s = .next t → FollowsFrames False s t)

/-- R13, R194, R224: an operation of the host port writes no snapshot register and takes no byte; only `INIT` touches
the flags, the watchdog, the sequencer, the table and the configuration, and only a send touches `TXBUF` and `TX`. -/
def Obligations.HostOperationsFrame : Prop :=
  ∀ (i : Instr) (s t : State), portOf i = .host → exec i s = .next t →
    t.ch = s.ch ∧ t.ls = s.ls ∧ t.src = s.src ∧ t.inbox = s.inbox ∧ t.rxbuf = s.rxbuf ∧ t.rxlen = s.rxlen ∧
    t.wdtCnt = s.wdtCnt ∧
    ((∀ poly v, i ≠ .init poly v) → t.fs = s.fs ∧ t.wdtArmed = s.wdtArmed ∧ t.rxs = s.rxs ∧ t.rxn = s.rxn ∧
      t.table = s.table ∧ t.inited = s.inited ∧ t.cfg = s.cfg) ∧
    ((∀ d x, i ≠ .sendBattery d x) → (∀ d x, i ≠ .sendGps d x) → (∀ d n x, i ≠ .sendRpm d n x) →
      (∀ d n x, i ≠ .sendTemp d n x) → t.txbuf = s.txbuf ∧ t.tx = s.tx)

/-! ## Checksum engine -/

/-- R90, R91: `CRC_BUILD` hands back the table whose entry `i` is eight rounds of "shift left, XOR the polynomial when the
top bit was set" from `i`, and changes nothing else; for any polynomial entry 0 is 0 and entry 1 is the polynomial, and the
polynomial 0 gives 0 everywhere. -/
def Obligations.CrcBuildIsEightRoundsPerEntry : Prop :=
  ∀ (poly : Byte) (s : State), ∃ T : Vector Byte 256,
    exec (.crcBuild poly) s = .next { s with res := s.res ++ [.table T] } ∧
    (∀ i, i < 256 → T.toList.getD i 0 =
      Nat.repeat (fun c : Byte => if c.toNat < 128 then BitVec.ofNat 8 (2 * c.toNat)
        else BitVec.ofNat 8 (2 * c.toNat) ^^^ poly) 8 (BitVec.ofNat 8 i)) ∧
    T.toList.getD 0 0 = 0 ∧ T.toList.getD 1 0 = poly ∧ (poly = 0 → T = Vector.replicate 256 0)

/-- R94: the table of the protocol's polynomial, as the spec prints it. -/
def Obligations.ProtocolTableIsAsPrinted : Prop :=
  (crcBuild 0xD5).toList =
    ([0x00, 0xD5, 0x7F, 0xAA, 0xFE, 0x2B, 0x81, 0x54, 0x29, 0xFC, 0x56, 0x83, 0xD7, 0x02, 0xA8, 0x7D,
      0x52, 0x87, 0x2D, 0xF8, 0xAC, 0x79, 0xD3, 0x06, 0x7B, 0xAE, 0x04, 0xD1, 0x85, 0x50, 0xFA, 0x2F] ++
     [0xA4, 0x71, 0xDB, 0x0E, 0x5A, 0x8F, 0x25, 0xF0, 0x8D, 0x58, 0xF2, 0x27, 0x73, 0xA6, 0x0C, 0xD9,
      0xF6, 0x23, 0x89, 0x5C, 0x08, 0xDD, 0x77, 0xA2, 0xDF, 0x0A, 0xA0, 0x75, 0x21, 0xF4, 0x5E, 0x8B] ++
     [0x9D, 0x48, 0xE2, 0x37, 0x63, 0xB6, 0x1C, 0xC9, 0xB4, 0x61, 0xCB, 0x1E, 0x4A, 0x9F, 0x35, 0xE0,
      0xCF, 0x1A, 0xB0, 0x65, 0x31, 0xE4, 0x4E, 0x9B, 0xE6, 0x33, 0x99, 0x4C, 0x18, 0xCD, 0x67, 0xB2] ++
     [0x39, 0xEC, 0x46, 0x93, 0xC7, 0x12, 0xB8, 0x6D, 0x10, 0xC5, 0x6F, 0xBA, 0xEE, 0x3B, 0x91, 0x44,
      0x6B, 0xBE, 0x14, 0xC1, 0x95, 0x40, 0xEA, 0x3F, 0x42, 0x97, 0x3D, 0xE8, 0xBC, 0x69, 0xC3, 0x16] ++
     [0xEF, 0x3A, 0x90, 0x45, 0x11, 0xC4, 0x6E, 0xBB, 0xC6, 0x13, 0xB9, 0x6C, 0x38, 0xED, 0x47, 0x92,
      0xBD, 0x68, 0xC2, 0x17, 0x43, 0x96, 0x3C, 0xE9, 0x94, 0x41, 0xEB, 0x3E, 0x6A, 0xBF, 0x15, 0xC0] ++
     [0x4B, 0x9E, 0x34, 0xE1, 0xB5, 0x60, 0xCA, 0x1F, 0x62, 0xB7, 0x1D, 0xC8, 0x9C, 0x49, 0xE3, 0x36,
      0x19, 0xCC, 0x66, 0xB3, 0xE7, 0x32, 0x98, 0x4D, 0x30, 0xE5, 0x4F, 0x9A, 0xCE, 0x1B, 0xB1, 0x64] ++
     [0x72, 0xA7, 0x0D, 0xD8, 0x8C, 0x59, 0xF3, 0x26, 0x5B, 0x8E, 0x24, 0xF1, 0xA5, 0x70, 0xDA, 0x0F,
      0x20, 0xF5, 0x5F, 0x8A, 0xDE, 0x0B, 0xA1, 0x74, 0x09, 0xDC, 0x76, 0xA3, 0xF7, 0x22, 0x88, 0x5D] ++
     [0xD6, 0x03, 0xA9, 0x7C, 0x28, 0xFD, 0x57, 0x82, 0xFF, 0x2A, 0x80, 0x55, 0x01, 0xD4, 0x7E, 0xAB,
      0x84, 0x51, 0xFB, 0x2E, 0x7A, 0xAF, 0x05, 0xD0, 0xAD, 0x78, 0xD2, 0x07, 0x53, 0x86, 0x2C, 0xF9] : List Byte)

/-- R92: `CRC_SUM` hands back the fold of each byte through `table[crc ^ byte]` from 0, over any table and any sequence,
the empty one included, and changes nothing else. -/
def Obligations.CrcSumFoldsThroughTheTable : Prop :=
  ∀ (T : Vector Byte 256) (bytes : List Byte) (s : State),
    exec (.crcSum T bytes) s =
      .next { s with res := s.res ++ [.u8 (bytes.foldl (fun c b => T.toList.getD (c ^^^ b).toNat 0) 0)] }

/-- R93 (a), (b), (c), (e): the table and the bitwise forms of the checksum agree, residue 0 of a sequence with its
checksum, linearity over XOR for equal lengths, and leading zero bytes that change nothing; for every polynomial. -/
def Obligations.ChecksumLaws : Prop :=
  ∀ (poly : Byte) (m : List Byte),
    crcSum (crcTable poly) m = .ok (crcBitwise poly m) ∧
    crcSum (crcTable poly) (m ++ [crcBitwise poly m]) = .ok 0 ∧
    (∀ a : List Byte, a.length = m.length →
      crcBitwise poly (List.zipWith (· ^^^ ·) a m) = crcBitwise poly a ^^^ crcBitwise poly m) ∧
    (∀ n, crcBitwise poly (List.replicate n 0 ++ m) = crcBitwise poly m)

/-- R93 (d): for an odd polynomial the table is a permutation, and two sequences that differ in one byte have different
checksums. -/
def Obligations.OddPolynomialCatchesOneByte : Prop :=
  ∀ (poly : Byte) (before after : List Byte) (b c : Byte), poly.getLsbD 0 = true → b ≠ c →
    crcEntry poly b ≠ crcEntry poly c ∧
    crcBitwise poly (before ++ b :: after) ≠ crcBitwise poly (before ++ c :: after)

/-! ## The receive sequencer -/

/-- R102: in `SEEK_SYNC` a destination byte is held and `READ_LENGTH` follows; any other byte is discarded with one
event. Nothing else changes. `x` is the next byte of the stream: the byte presented, or one that waits before it. -/
def Obligations.SeekSyncStep : Prop :=
  ∀ (s : State) (b x : Byte) (rest : List Byte), s.inited = true → s.src ++ [b] = x :: rest → s.rxs = .seekSync →
    exec (.rxByte b) s = .next
      (if x = Config.params.destFc ∨ x = Config.params.destTx then
        { s with src := rest, rxbuf := s.rxbuf.write 0 x, rxn := 1, rxs := .readLength }
      else { s with src := rest, ev := s.ev ++ [.errDesyncSkip x] })

/-- R103: in `READ_LENGTH` a byte in 2..62 is the length; any other raises `ERR_BAD_LENGTH` and is examined again as a
sync byte in the same step. Nothing else changes. `x` is the next byte of the stream. -/
def Obligations.ReadLengthStep : Prop :=
  ∀ (s : State) (b x : Byte) (rest : List Byte), s.inited = true → s.src ++ [b] = x :: rest → s.rxs = .readLength →
    exec (.rxByte b) s = .next
      (if 2 ≤ x.toNat ∧ x.toNat ≤ 62 then
        { s with src := rest, rxbuf := s.rxbuf.write 1 x, rxlen := x, rxn := 2, rxs := .awaitBody }
      else if x = Config.params.destFc ∨ x = Config.params.destTx then
        { s with src := rest, ev := s.ev ++ [.errBadLength x], rxbuf := s.rxbuf.write 0 x, rxn := 1, rxs := .readLength }
      else { s with src := rest, ev := s.ev ++ [.errBadLength x], rxn := 0, rxs := .seekSync })

/-- R104, R105, R106: in `AWAIT_BODY` the next byte `x` of the stream is stored at `RXN`, whatever it is. Before the last
body byte that and `RXN + 1` are all. The last one takes the frame out of the buffer, and the frame is dispatched, or,
with verification on and a checksum byte other than the one computed, dropped with one event; the sequencer seeks again
either way. -/
def Obligations.AwaitBodyStep : Prop :=
  ∀ (s : State) (b x : Byte) (rest : List Byte), EngineInv s → s.inited = true → s.src ++ [b] = x :: rest →
    s.rxs = .awaitBody →
    (s.rxn + 1 ≠ s.rxlen.toNat + 2 →
      exec (.rxByte b) s = .next { s with src := rest, rxbuf := s.rxbuf.write s.rxn x, rxn := s.rxn + 1 }) ∧
    (s.rxn + 1 = s.rxlen.toNat + 2 →
      ∃ (dest type : Byte) (payload : List Byte),
        (s.rxbuf.write s.rxn x).read 0 = some dest ∧ (s.rxbuf.write s.rxn x).read 2 = some type ∧
        payload.length = s.rxlen.toNat - 2 ∧
        (∀ k, k < payload.length → (s.rxbuf.write s.rxn x).read (3 + k) = payload[k]?) ∧
        exec (.rxByte b) s = .next
          (let taken : State := { s with src := rest, rxbuf := s.rxbuf.write s.rxn x, rxn := 0, rxs := .seekSync }
          if s.cfg.crcVerify = true ∧ crcBitwise s.cfg.poly (type :: payload) ≠ x then
            { taken with ev := s.ev ++ [.errCrcMismatch (crcBitwise s.cfg.poly (type :: payload)) x] }
          else dispatch Config.params dest type payload taken))

/-- The frame of one step of the sequencer (R48, R57, R101) and the complete list of its transitions (R113): exactly one
byte `x` is taken from the stream; `RXBUF` keeps every byte but the one stored, whose index is computed as the rules give
it; nothing outside the receive side and what an accepted frame updates changes; and `RXS` goes where the list says. -/
def Obligations.RxByteFrame : Prop :=
  ∀ (s t : State) (b x : Byte) (rest : List Byte), s.inited = true → s.src ++ [b] = x :: rest →
    exec (.rxByte b) s = .next t →
    (∀ k, storedAt x s ≠ some k → t.rxbuf.read k = s.rxbuf.read k) ∧
    (∀ k, storedAt x s = some k → t.rxbuf.read k = some x) ∧
    t.txbuf = s.txbuf ∧ t.table = s.table ∧ t.inited = s.inited ∧ t.cfg = s.cfg ∧ t.tx = s.tx ∧ t.res = s.res ∧
    t.src = rest ∧ t.inbox = s.inbox ∧
    (s.rxs = .seekSync → t.rxs = if isDest Config.params x then .readLength else .seekSync) ∧
    (s.rxs = .readLength → t.rxs = if 2 ≤ x.toNat ∧ x.toNat ≤ 62 then .awaitBody
      else if isDest Config.params x then .readLength else .seekSync) ∧
    (s.rxs = .awaitBody → t.rxs = if s.rxn + 1 = s.rxlen.toNat + 2 then .seekSync else .awaitBody)

/-- R108, R107: a chunk is its bytes, one `RX_BYTE` after another in order, the first in the chunk's own step and the
others in the receive agent's steps after it, and the empty chunk is nothing; a stream cut into two chunks anywhere gives
the state of the whole stream once all its bytes are taken; and a frame row is the chunk of its bytes (log 8). In every
state, whatever the sequencer is inside of and whatever waits at the source. -/
def Obligations.ChunkIsItsBytesInOrder : Prop :=
  ∀ (s : State),
    (∀ bytes : List Byte, andThen (exec (.rxChunk bytes) s) (receive Config.params (bytes.length - 1)) =
      execAll (bytes.map Instr.rxByte) s) ∧
    exec (.rxChunk []) s = .next s ∧
    (∀ xs ys : List Byte, andThen (execAll [.rxChunk xs, .rxChunk ys] s) (drain Config.params) =
      andThen (exec (.rxChunk (xs ++ ys)) s) (drain Config.params)) ∧
    (∀ d type p c, exec (frameOfType Config.params d type p c) s =
      exec (.rxChunk (frameBytes Config.params d type p c)) s)

/-- R107: over any input, the byte-serial sequencer and the source's cursor algorithm accept the same frames: the same
registers, watchdog and results, and the same events but for those of the scan itself. A chunk's own step is the
`RX_BYTE` of its first waiting byte (log 8, DEDUCED). -/
def Obligations.SequencerMatchesTheCursor : Prop :=
  ∀ (bytes : List Byte) (s : State), ReadyToReceive s →
    ∃ u t, exec (.rxChunk bytes) s = .next u ∧ drain Config.params u = .next t ∧
      let v := cursorRun Config.params bytes.length bytes s
      t.ch = v.ch ∧ t.ls = v.ls ∧ t.fs = v.fs ∧ t.wdtArmed = v.wdtArmed ∧ t.wdtCnt = v.wdtCnt ∧
        t.ev.filter (fun e => !scanEvent e) = v.ev.filter (fun e => !scanEvent e) ∧ t.tx = v.tx ∧ t.res = v.res

/-- R100, R101, R197, R223, and the model's own form of the wait (log 7): while `INITED` = 0 presented bytes wait at
the source, in order, and nothing else changes; once `INITED` = 1 every step of the receive agent takes the byte that
waits first and no other, alone or with a further byte or chunk presented, and with none waiting it does nothing. A
chunk or frame row's own step is the `RX_BYTE` of its first waiting byte (log 8, DEDUCED). -/
def Obligations.BytesWaitForInit : Prop :=
  ∀ (s : State),
    (s.inited = false →
      (∀ b, exec (.rxByte b) s = .next { s with src := s.src ++ [b] }) ∧
      (∀ bytes, exec (.rxChunk bytes) s = .next { s with src := s.src ++ bytes }) ∧
      (∀ d type p c, exec (frameOfType Config.params d type p c) s =
        .next { s with src := s.src ++ frameBytes Config.params d type p c }) ∧
      takeByte Config.params s = .next s) ∧
    (s.inited = true →
      (∀ b, exec (.rxByte b) s = takeByte Config.params { s with src := s.src ++ [b] }) ∧
      (∀ bytes, bytes ≠ [] → exec (.rxChunk bytes) s = takeByte Config.params { s with src := s.src ++ bytes }) ∧
      (s.src = [] → takeByte Config.params s = .next s) ∧
      (∀ t, takeByte Config.params s = .next t → t.src = s.src.tail))

/-! ## Frames -/

/-- R111, R6: the bytes of an encoded frame that wait at the source, whatever waits after them, make exactly one
dispatch of that frame in as many steps of a receive agent that seeks, with every choice of the parameters, which no
rule depends on; presented as a chunk to a ready engine they do so with the parameters of the model. A chunk's own
step is the `RX_BYTE` of its first waiting byte (log 8, DEDUCED). -/
def Obligations.EncodedFrameIsDispatchedOnce : Prop :=
  ∀ (s : State) (d : Dest) (type : Byte) (p : List Byte), p.length ≤ 60 →
    (∀ (P : Params) (rest : List Byte), s.inited = true → s.rxs = .seekSync → s.table = crcTable s.cfg.poly →
      let f := frameBytes P d type p (crcBitwise s.cfg.poly (type :: p))
      receive P f.length { s with src := f ++ rest } =
        .next (dispatch P (dval P d) type p { frameTaken f s with rxn := 0, src := rest })) ∧
    (ReadyToReceive s → ∃ u, exec (.rxChunk (encodedFrame d type p s)) s = .next u ∧ drain Config.params u =
      .next (dispatch Config.params (dval Config.params d) type p (frameTaken (encodedFrame d type p s) s)))

/-- R143, R141, R145, R147, R153: an accepted GPS, battery, RPM or temperature frame leaves its decoded value on `EV`
and changes nothing but the sequencer's leftovers. A frame row's own step is the `RX_BYTE` of its first waiting byte
(log 8, DEDUCED). -/
def Obligations.TelemetryFramesLeaveAsOneEvent : Prop :=
  ∀ (s : State) (d : Dest) (p : List Byte) (c : Byte), ReadyToReceive s →
    (∀ x, gpsUnpack p = some x → crcAccepted Config.params.typeGps p c s = true →
      ∃ u, exec (.gps d p c) s = .next u ∧ drain Config.params u = .next
        { frameTaken (frameBytes Config.params d Config.params.typeGps p c) s with
          ev := s.ev ++ [.decGps (dval Config.params d) x] }) ∧
    (∀ x, batteryUnpack p = some x → crcAccepted Config.params.typeBattery p c s = true →
      ∃ u, exec (.battery d p c) s = .next u ∧ drain Config.params u = .next
        { frameTaken (frameBytes Config.params d Config.params.typeBattery p c) s with
          ev := s.ev ++ [.decBattery (dval Config.params d) x] }) ∧
    (∀ x, rpmUnpack p = some x → crcAccepted Config.params.typeRpm p c s = true →
      ∃ u, exec (.rpm d p c) s = .next u ∧ drain Config.params u = .next
        { frameTaken (frameBytes Config.params d Config.params.typeRpm p c) s with
          ev := s.ev ++ [.decRpm (dval Config.params d) x] }) ∧
    (∀ x, tempUnpack p = some x → crcAccepted Config.params.typeTemp p c s = true →
      ∃ u, exec (.temp d p c) s = .next u ∧ drain Config.params u = .next
        { frameTaken (frameBytes Config.params d Config.params.typeTemp p c) s with
          ev := s.ev ++ [.decTemp (dval Config.params d) x] })

/-- R151: an accepted channels frame writes all sixteen registers, clears `FS`, arms the watchdog for the full window
and emits its event, once its bytes are taken; nothing else changes but the sequencer's leftovers. A frame row's own
step is the `RX_BYTE` of its first waiting byte (log 8, DEDUCED). -/
def Obligations.ChannelsFrameUpdatesAndFeeds : Prop :=
  ∀ (s : State) (d : Dest) (p : List Byte) (c : Byte), ReadyToReceive s → p.length = 22 →
    crcAccepted Config.params.typeChannels p c s = true →
    ∃ u, exec (.channels d p c) s = .next u ∧ drain Config.params u = .next
      { frameTaken (frameBytes Config.params d Config.params.typeChannels p c) s with
        ch := chUnpack p, fs := false, wdtArmed := true, wdtCnt := 500,
        ev := s.ev ++ [.decChannels (dval Config.params d) (chUnpack p)] }

/-- R152: an accepted link-statistics frame writes the ten registers and emits its event; the watchdog is not fed and
`CH` is not touched. A frame row's own step is the `RX_BYTE` of its first waiting byte (log 8, DEDUCED). -/
def Obligations.LinkFrameUpdatesStatistics : Prop :=
  ∀ (s : State) (d : Dest) (v : Vector Byte 10) (c : Byte), ReadyToReceive s →
    crcAccepted Config.params.typeLink v.toList c s = true →
    ∃ u, exec (.link d v.toList c) s = .next u ∧ drain Config.params u = .next
      { frameTaken (frameBytes Config.params d Config.params.typeLink v.toList c) s with
        ls := v, ev := s.ev ++ [.decLink (dval Config.params d) v] }

/-- R154: a frame of an unrecognised type raises `ERR_UNSUPPORTED_TYPE`, then leaves as a generic value, and changes
no state but the sequencer's leftovers. A frame row's own step is the `RX_BYTE` of its first waiting byte (log 8,
DEDUCED). -/
def Obligations.GenericFrameIsIgnored : Prop :=
  ∀ (s : State) (d : Dest) (type : Byte) (p : List Byte) (c : Byte), ReadyToReceive s →
    type ∉ Config.params.types → p.length ≤ 60 → crcAccepted type p c s = true →
    ∃ u, exec (.generic d type p c) s = .next u ∧ drain Config.params u = .next
      { frameTaken (frameBytes Config.params d type p c) s with
        ev := s.ev ++ [.errUnsupportedType type, .generic (dval Config.params d) type p] }

/-- R204: with verification on, a frame of any type whose checksum byte is wrong is consumed whole, raises
`ERR_CRC_MISMATCH` and changes no state but the sequencer's leftovers. A frame row's own step is the `RX_BYTE` of its
first waiting byte (log 8, DEDUCED). -/
def Obligations.WrongChecksumDropsTheFrame : Prop :=
  ∀ (s : State) (d : Dest) (type : Byte) (p : List Byte) (c : Byte), ReadyToReceive s → p.length ≤ 60 →
    s.cfg.crcVerify = true → crcBitwise s.cfg.poly (type :: p) ≠ c →
    ∃ u, exec (frameOfType Config.params d type p c) s = .next u ∧ drain Config.params u = .next
      { frameTaken (frameBytes Config.params d type p c) s with
        ev := s.ev ++ [.errCrcMismatch (crcBitwise s.cfg.poly (type :: p)) c] }

/-- R155, R206: a frame of a recognised type with a payload length its codec does not accept raises
`ERR_PAYLOAD_SHAPE` and changes no state but the sequencer's leftovers. A frame row's own step is the `RX_BYTE` of its
first waiting byte (log 8, DEDUCED). -/
def Obligations.WrongShapeDropsTheFrame : Prop :=
  ∀ (s : State) (d : Dest) (type : Byte) (p : List Byte) (c : Byte), ReadyToReceive s → p.length ≤ 60 →
    crcAccepted type p c s = true →
    ((type = Config.params.typeChannels ∧ p.length ≠ 22) ∨ (type = Config.params.typeBattery ∧ p.length ≠ 8) ∨
      (type = Config.params.typeGps ∧ p.length ≠ 15) ∨ (type = Config.params.typeLink ∧ p.length ≠ 10) ∨
      (type = Config.params.typeRpm ∧ ¬∃ N, 1 ≤ N ∧ N ≤ 19 ∧ p.length = 1 + 3 * N) ∨
      (type = Config.params.typeTemp ∧ ¬∃ N, 1 ≤ N ∧ N ≤ 20 ∧ p.length = 1 + 2 * N)) →
    ∃ u, exec (frameOfType Config.params d type p c) s = .next u ∧ drain Config.params u = .next
      { frameTaken (frameBytes Config.params d type p c) s with
        ev := s.ev ++ [.errPayloadShape type p.length] }

/-- The frame of a received frame (R57 (c), R104, R212): after the receive agent's steps on its bytes, the frame stands in
`RXBUF` from element 0 on, every element after it reads as before, and the other arrays are unchanged; the sequencer seeks
again; and the events appended hold at most one error, whatever the frame's type, payload and checksum. The clause that
gives `u` is the model's own reading (log 8, DEDUCED) and no cited rule's: the row's own step is the `RX_BYTE` of the
frame's first byte, and the others wait at the source. -/
def Obligations.ReceivedFrameFrame : Prop :=
  ∀ (s u t : State) (d : Dest) (type : Byte) (p : List Byte) (c : Byte), ReadyToReceive s → p.length ≤ 60 →
    exec (frameOfType Config.params d type p c) s = .next u → drain Config.params u = .next t →
    u = { s with src := (frameBytes Config.params d type p c).drop 1, rxbuf := s.rxbuf.write 0 (dval Config.params d),
                 rxn := 1, rxs := .readLength } ∧
    (∀ k, k < p.length + 4 → t.rxbuf.read k = (frameBytes Config.params d type p c)[k]?) ∧
    (∀ k, p.length + 4 ≤ k → t.rxbuf.read k = s.rxbuf.read k) ∧
    t.txbuf = s.txbuf ∧ t.table = s.table ∧ t.tx = s.tx ∧ t.res = s.res ∧
    t.inited = s.inited ∧ t.cfg = s.cfg ∧ t.src = s.src ∧ t.inbox = s.inbox ∧
    t.rxs = .seekSync ∧ t.rxn = 0 ∧
    ∃ new, t.ev = s.ev ++ new ∧ (new.filter isErrorEvent).length ≤ 1

/-- R156: for every value of every codec, the frame of its pack, fed to a ready engine, emits exactly one decoded
event that carries the value and no error event. A chunk's own step is the `RX_BYTE` of its first waiting byte (log 8,
DEDUCED). -/
def Obligations.PipelineRoundTrips : Prop :=
  ∀ (s : State) (d : Dest), ReadyToReceive s →
    (∀ x, ∃ u t, exec (.rxChunk (encodedFrame d Config.params.typeBattery (batteryPack x) s)) s = .next u ∧
        drain Config.params u = .next t ∧
      t.ev = s.ev ++ [.decBattery (dval Config.params d) x]) ∧
    (∀ x, ∃ u t, exec (.rxChunk (encodedFrame d Config.params.typeGps (gpsPack x) s)) s = .next u ∧
        drain Config.params u = .next t ∧
      t.ev = s.ev ++ [.decGps (dval Config.params d) x]) ∧
    (∀ ls, ∃ u t, exec (.rxChunk (encodedFrame d Config.params.typeLink (linkPack ls) s)) s = .next u ∧
        drain Config.params u = .next t ∧
      t.ev = s.ev ++ [.decLink (dval Config.params d) ls] ∧ t.ls = ls) ∧
    (∀ v : Vector (BitVec 11) 16, ∃ u t,
      exec (.rxChunk (encodedFrame d Config.params.typeChannels (chPack (vecMap (BitVec.setWidth 16) v)) s)) s = .next u ∧
        drain Config.params u = .next t ∧ t.ev = s.ev ++ [.decChannels (dval Config.params d) v] ∧ t.ch = v) ∧
    (∀ sid vs p, vs.length ≤ 19 → rpmPack sid vs = some p →
      ∃ u t, exec (.rxChunk (encodedFrame d Config.params.typeRpm p s)) s = .next u ∧
        drain Config.params u = .next t ∧
        t.ev = s.ev ++ [.decRpm (dval Config.params d) ⟨sid, vs⟩]) ∧
    (∀ sid vs p, vs.length ≤ 20 → tempPack sid vs = some p →
      ∃ u t, exec (.rxChunk (encodedFrame d Config.params.typeTemp p s)) s = .next u ∧
        drain Config.params u = .next t ∧
        t.ev = s.ev ++ [.decTemp (dval Config.params d) ⟨sid, vs⟩])

/-- R110: `FRAME_ENCODE` hands back `[dest, n + 2, type] ++ payload ++ [checksum]` for a payload of at most 60 bytes, and
for a longer one an error with its event and no bytes. -/
def Obligations.FrameEncodeBuildsTheFrame : Prop :=
  ∀ (s : State) (dest type : Byte) (p : List Byte), EngineInv s → s.inited = true →
    (p.length ≤ 60 → exec (.frameEncode dest type p) s = .next
      { s with res := s.res ++
        [.bytes ([dest, BitVec.ofNat 8 (p.length + 2), type] ++ p ++ [crcBitwise s.cfg.poly (type :: p)])] }) ∧
    (60 < p.length → exec (.frameEncode dest type p) s = .next
      { s with ev := s.ev ++ [.errEncodingLimit p.length], res := s.res ++ [.error .encodingLimit] })

/-- The model's own treatment of two preconditions (log 10): `FRAME_ENCODE` before `INIT` (R110) stops with a fault of its
own name, and a marshaler read completes for every sequence and offset, with a value that depends on nothing else, the
signed read extending the very value the unsigned one hands back (R136); outside the sequence that value is free. -/
def Obligations.UnitOperationsOutsideTheirPreconditions : Prop :=
  (∀ (s : State) (dest type : Byte) (p : List Byte), s.inited = false →
    exec (.frameEncode dest type p) s = .fault .requiresInit) ∧
  (∀ (b : List Byte) (o : Nat), ∃ (v16 : BitVec 16) (v24 : BitVec 24) (v32 : BitVec 32), ∀ s : State,
    exec (.beGet16 b o) s = .next { s with res := s.res ++ [.u16 v16] } ∧
    exec (.beGet24 b o) s = .next { s with res := s.res ++ [.u24 v24] } ∧
    exec (.beGet32 b o) s = .next { s with res := s.res ++ [.u32 v32] } ∧
    exec (.beGets .w16 b o) s = .next { s with res := s.res ++ [.i32 (v16.signExtend 32)] } ∧
    exec (.beGets .w24 b o) s = .next { s with res := s.res ++ [.i32 (v24.signExtend 32)] } ∧
    exec (.beGets .w32 b o) s = .next { s with res := s.res ++ [.i32 v32] })

/-! ## Channel words -/

/-- R120: `CH_UNPACK` hands back the sixteen fields of bits `11 i + 10 .. 11 i` of Σ p[j] · 2^(8 j). -/
def Obligations.ChUnpackCutsTheNumber : Prop :=
  ∀ (p : Vector Byte 22) (s : State), ∃ v : Vector (BitVec 11) 16,
    exec (.chUnpack p) s = .next { s with res := s.res ++ [.ch v] } ∧
    ∀ i, i < 16 → (v.toList.getD i 0).toNat =
      (∑ j ∈ Finset.range 22, (p.toList.getD j 0).toNat * 2 ^ (8 * j)) / 2 ^ (11 * i) % 2 ^ 11

/-- R122, R123: `CH_PACK` hands back the 22 bytes of Σ min(v[i], 2047) · 2^(11 i). -/
def Obligations.ChPackCutsTheNumber : Prop :=
  ∀ (v : Vector (BitVec 16) 16) (s : State), ∃ p : List Byte,
    exec (.chPack v) s = .next { s with res := s.res ++ [.bytes p] } ∧ p.length = 22 ∧
    ∀ j, j < 22 → (p.getD j 0).toNat =
      (∑ i ∈ Finset.range 16, min (v.toList.getD i 0).toNat 2047 * 2 ^ (11 * i)) / 2 ^ (8 * j) % 2 ^ 8

/-- R124: unpack after pack gives every value back, clamped at 2047, and pack after unpack gives every payload back. -/
def Obligations.ChannelWordsRoundTrip : Prop :=
  (∀ (v : Vector (BitVec 16) 16) i, i < 16 →
    ((chUnpack (chPack v)).toList.getD i 0).toNat = min (v.toList.getD i 0).toNat 2047) ∧
  (∀ p : List Byte, p.length = 22 → chPack (vecMap (BitVec.setWidth 16) (chUnpack p)) = p)

/-- R121, R122: the functions byte by byte, as the spec's two tables give them, are the functions on the 176-bit
number. -/
def Obligations.ChannelByteTablesAgree : Prop :=
  (∀ p : List Byte, p.length = 22 → chUnpackByBytes p = (chUnpack p).toList) ∧
  (∀ v : Vector (BitVec 16) 16, chPackByBytes v = chPack v)

/-! ## Big-endian marshaler -/

/-- R130, R131, R132: a read inside its sequence hands back the field, first byte most significant, and changes nothing
else. -/
def Obligations.BigEndianReads : Prop :=
  ∀ (b : List Byte) (o : Nat) (s : State),
    (o + 2 ≤ b.length → ∃ v, exec (.beGet16 b o) s = .next { s with res := s.res ++ [.u16 v] } ∧
      v.toNat = (b.getD o 0).toNat * 2 ^ 8 + (b.getD (o + 1) 0).toNat) ∧
    (o + 3 ≤ b.length → ∃ v, exec (.beGet24 b o) s = .next { s with res := s.res ++ [.u24 v] } ∧
      v.toNat = (b.getD o 0).toNat * 2 ^ 16 + (b.getD (o + 1) 0).toNat * 2 ^ 8 + (b.getD (o + 2) 0).toNat) ∧
    (o + 4 ≤ b.length → ∃ v, exec (.beGet32 b o) s = .next { s with res := s.res ++ [.u32 v] } ∧
      v.toNat = (b.getD o 0).toNat * 2 ^ 24 + (b.getD (o + 1) 0).toNat * 2 ^ 16 + (b.getD (o + 2) 0).toNat * 2 ^ 8
        + (b.getD (o + 3) 0).toNat)

/-- R133, R134, R135: a write hands back the bytes of the value, most significant first, and changes nothing else. -/
def Obligations.BigEndianWrites : Prop :=
  ∀ s : State,
    (∀ v : BitVec 16, exec (.bePut16 v) s = .next { s with res := s.res ++
      [.bytes [BitVec.ofNat 8 (v.toNat / 2 ^ 8), BitVec.ofNat 8 v.toNat]] }) ∧
    (∀ v : BitVec 24, exec (.bePut24 v) s = .next { s with res := s.res ++
      [.bytes [BitVec.ofNat 8 (v.toNat / 2 ^ 16), BitVec.ofNat 8 (v.toNat / 2 ^ 8), BitVec.ofNat 8 v.toNat]] }) ∧
    (∀ v : BitVec 32, exec (.bePut32 v) s = .next { s with res := s.res ++
      [.bytes [BitVec.ofNat 8 (v.toNat / 2 ^ 24), BitVec.ofNat 8 (v.toNat / 2 ^ 16),
        BitVec.ofNat 8 (v.toNat / 2 ^ 8), BitVec.ofNat 8 v.toNat]] })

/-- R136: a signed read hands back `u − 2^W` where bit `W − 1` of the field is set and `u` where it is not, as `i32`. -/
def Obligations.SignedReadsExtendTheSign : Prop :=
  ∀ (b : List Byte) (o : Nat) (s : State),
    (o + 2 ≤ b.length → ∃ v, exec (.beGets .w16 b o) s = .next { s with res := s.res ++ [.i32 v] } ∧
      v.toInt = if 2 ^ 15 ≤ (beGet16 b o).toNat then ((beGet16 b o).toNat : Int) - (2 : Int) ^ 16
        else ((beGet16 b o).toNat : Int)) ∧
    (o + 3 ≤ b.length → ∃ v, exec (.beGets .w24 b o) s = .next { s with res := s.res ++ [.i32 v] } ∧
      v.toInt = if 2 ^ 23 ≤ (beGet24 b o).toNat then ((beGet24 b o).toNat : Int) - (2 : Int) ^ 24
        else ((beGet24 b o).toNat : Int)) ∧
    (o + 4 ≤ b.length → ∃ v, exec (.beGets .w32 b o) s = .next { s with res := s.res ++ [.i32 v] } ∧
      v.toInt = if 2 ^ 31 ≤ (beGet32 b o).toNat then ((beGet32 b o).toNat : Int) - (2 : Int) ^ 32
        else ((beGet32 b o).toNat : Int))

/-- R137: a signed write of an operand in the `W`-bit range hands back the big-endian bytes of its two's-complement
pattern `v` or `v + 2^W`. -/
def Obligations.SignedWritesTwosComplement : Prop :=
  ∀ (w : Width) (v : BitVec 32) (s : State),
    -(2 ^ (widthBits w - 1) : Int) ≤ v.toInt → v.toInt ≤ 2 ^ (widthBits w - 1) - 1 →
    let u : Nat := (if 0 ≤ v.toInt then v.toInt else v.toInt + 2 ^ widthBits w).toNat
    exec (.bePuts w v) s = .next { s with res := s.res ++
      [.bytes ((List.range (widthBytes w)).map fun k => BitVec.ofNat 8 (u / 2 ^ (8 * (widthBytes w - 1 - k))))] }

/-- Log 4 (the model's own): outside the domain of R137 a signed write still completes, with `W / 8` bytes of a free
value. -/
def Obligations.SignedWritesCompleteOutsideTheDomain : Prop :=
  ∀ (w : Width) (v : BitVec 32) (s : State), ∃ bs : List Byte, bs.length = widthBytes w ∧
    exec (.bePuts w v) s = .next { s with res := s.res ++ [.bytes bs] }

/-- R138: the round trips of every width. -/
def Obligations.MarshalerRoundTrips : Prop :=
  (∀ v, beGet16 (bePut16 v) 0 = v) ∧ (∀ v, beGet24 (bePut24 v) 0 = v) ∧ (∀ v, beGet32 (bePut32 v) 0 = v) ∧
  (∀ (b : List Byte) o, o + 2 ≤ b.length → bePut16 (beGet16 b o) = (b.drop o).take 2) ∧
  (∀ (b : List Byte) o, o + 3 ≤ b.length → bePut24 (beGet24 b o) = (b.drop o).take 3) ∧
  (∀ (b : List Byte) o, o + 4 ≤ b.length → bePut32 (beGet32 b o) = (b.drop o).take 4) ∧
  (∀ w v, inSignedRange w v = true → beGets w (bePuts w v) 0 = v)

/-! ## Payload codecs -/

/-- R141, R143, R149: the fixed-size unpacks hand back the fields at the offsets of their layouts, or `shape_error` for
any other length; nothing else changes. -/
def Obligations.FixedRecordUnpacks : Prop :=
  ∀ (p : List Byte) (s : State),
    (exec (.batteryUnpack p) s = .next { s with res := s.res ++ [if p.length = 8 then
      .battery ⟨beGet16 p 0, beGet16 p 2, (beGet32 p 4).extractLsb' 8 24, p.getD 7 0⟩ else .shapeError] }) ∧
    (exec (.gpsUnpack p) s = .next { s with res := s.res ++ [if p.length = 15 then
      .gps ⟨beGet32 p 0, beGet32 p 4, beGet16 p 8, beGet16 p 10, beGet16 p 12, p.getD 14 0⟩ else .shapeError] }) ∧
    (p.length ≠ 10 → exec (.linkUnpack p) s = .next { s with res := s.res ++ [.shapeError] }) ∧
    (∀ ls : Vector Byte 10, ls.toList = p →
      exec (.linkUnpack p) s = .next { s with res := s.res ++ [.linkStatistics ls] })

/-- R145, R147: the list unpacks take the count from the payload's length, and hand back `source_id` and the signed
values at `1 + 3 k` or `1 + 2 k`, or `shape_error` where the length is none of the admitted ones. -/
def Obligations.ListUnpacks : Prop :=
  ∀ (p : List Byte) (s : State),
    (∀ N, 1 ≤ N → N ≤ 19 → p.length = 1 + 3 * N → ∃ vs : List (BitVec 32), vs.length = N ∧
      (∀ k, k < N → vs.getD k 0 = beGets .w24 p (1 + 3 * k)) ∧
      exec (.rpmUnpack p) s = .next { s with res := s.res ++ [.rpm ⟨p.getD 0 0, vs⟩] }) ∧
    ((¬∃ N, 1 ≤ N ∧ N ≤ 19 ∧ p.length = 1 + 3 * N) →
      exec (.rpmUnpack p) s = .next { s with res := s.res ++ [.shapeError] }) ∧
    (∀ N, 1 ≤ N → N ≤ 20 → p.length = 1 + 2 * N → ∃ vs : List (BitVec 16), vs.length = N ∧
      (∀ k, k < N → (vs.getD k 0).toInt = (beGets .w16 p (1 + 2 * k)).toInt) ∧
      exec (.tempUnpack p) s = .next { s with res := s.res ++ [.temp ⟨p.getD 0 0, vs⟩] }) ∧
    ((¬∃ N, 1 ≤ N ∧ N ≤ 20 ∧ p.length = 1 + 2 * N) →
      exec (.tempUnpack p) s = .next { s with res := s.res ++ [.shapeError] })

/-- R142, R144, R149: the packs that cannot refuse. -/
def Obligations.FixedRecordPacks : Prop :=
  ∀ s : State,
    (∀ x : Battery, exec (.batteryPack x) s = .next { s with res := s.res ++
      [.bytes (bePut16 x.voltage ++ bePut16 x.current ++ bePut24 x.capacity ++ [x.remaining])] }) ∧
    (∀ x : Gps, exec (.gpsPack x) s = .next { s with res := s.res ++
      [.bytes (bePut32 x.latitude ++ bePut32 x.longitude ++ bePut16 x.groundspeed ++ bePut16 x.heading
        ++ bePut16 x.altitude ++ [x.satellites])] }) ∧
    (∀ ls : Vector Byte 10, exec (.linkPack ls) s = .next { s with res := s.res ++ [.bytes ls.toList] })

/-- R146, R148: the list packs refuse an empty list, keep the first 19 or 20 entries, check only those kept (RPM), and
otherwise hand back `source_id` and each kept value in three or two big-endian bytes. -/
def Obligations.ListPacks : Prop :=
  ∀ (s : State) (sid : Byte),
    (∀ vs : List (BitVec 32),
      exec (.rpmPack sid vs) s = .next { s with res := s.res ++
        [if vs = [] ∨ ∃ x ∈ vs.take 19, x.toInt < -8388608 ∨ 8388607 < x.toInt then .refused .range
         else .bytes (sid :: (vs.take 19).flatMap fun x => bePut24 (x.setWidth 24))] }) ∧
    (∀ vs : List (BitVec 16),
      exec (.tempPack sid vs) s = .next { s with res := s.res ++
        [if vs = [] then .refused .range else .bytes (sid :: (vs.take 20).flatMap bePut16)] })

/-- R150 to R155: the dispatcher presented alone does, for each type, what the rule of that type says. -/
def Obligations.DispatchRoutesByType : Prop :=
  ∀ (s : State) (dest type : Byte) (p : List Byte), exec (.dispatch dest type p) s = .next
    (if type = Config.params.typeChannels then
      if p.length = 22 then
        { s with ch := chUnpack p, fs := false, wdtArmed := true, wdtCnt := 500,
                 ev := s.ev ++ [.decChannels dest (chUnpack p)] }
      else { s with ev := s.ev ++ [.errPayloadShape type p.length] }
    else if type = Config.params.typeLink then
      match linkUnpack p with
      | some ls => { s with ls := ls, ev := s.ev ++ [.decLink dest ls] }
      | none => { s with ev := s.ev ++ [.errPayloadShape type p.length] }
    else if type = Config.params.typeBattery then { s with ev := s.ev ++ [((batteryUnpack p).map (Event.decBattery dest)).getD
      (.errPayloadShape type p.length)] }
    else if type = Config.params.typeGps then { s with ev := s.ev ++ [((gpsUnpack p).map (Event.decGps dest)).getD
      (.errPayloadShape type p.length)] }
    else if type = Config.params.typeRpm then { s with ev := s.ev ++ [((rpmUnpack p).map (Event.decRpm dest)).getD
      (.errPayloadShape type p.length)] }
    else if type = Config.params.typeTemp then { s with ev := s.ev ++ [((tempUnpack p).map (Event.decTemp dest)).getD
      (.errPayloadShape type p.length)] }
    else { s with ev := s.ev ++ [.errUnsupportedType type, .generic dest type p] })

/-! ## Snapshot register file, failsafe monitor, host operations -/

/-- R170 to R173: an update replaces its whole record and nothing else; a read hands back a copy and changes nothing. -/
def Obligations.SnapshotOperations : Prop :=
  ∀ (s : State) (v : Vector (BitVec 11) 16) (ls : Vector Byte 10),
    exec (.stUpdateCh v) s = .next { s with ch := v } ∧
    exec .stReadCh s = .next { s with res := s.res ++ [.ch s.ch] } ∧
    exec (.stUpdateLs ls) s = .next { s with ls := ls } ∧
    exec .stReadLs s = .next { s with res := s.res ++ [.linkStatistics s.ls] }

/-- R216 to R219: feed, expiry, tick and query of the failsafe monitor. -/
def Obligations.FailsafeOperations : Prop :=
  ∀ s : State,
    exec .fsFeed s = .next { s with fs := false, wdtArmed := true, wdtCnt := 500 } ∧
    exec .fsExpire s = .next { s with fs := true, wdtArmed := false, ev := s.ev ++ [.failsafe] } ∧
    exec .tick s = .next
      (if s.wdtArmed = true then
        if s.wdtCnt = 1 then { s with fs := true, wdtArmed := false, ev := s.ev ++ [.failsafe] }
        else { s with wdtCnt := s.wdtCnt - 1 }
      else s) ∧
    exec .fsQuery s = .next { s with res := s.res ++ [.bit s.fs] }

/-- R220: after a feed `FS` is 0 for the next 499 ticks and 1 from the 500th on; the expiry is reported once, and the
snapshot is kept (R222). -/
def Obligations.FailsafeLifecycle : Prop :=
  ∀ (s : State) (n : Nat), ∃ t, execAll (.fsFeed :: List.replicate n .tick) s = .next t ∧
    t.fs = decide (500 ≤ n) ∧ t.wdtArmed = decide (n < 500) ∧ (n < 500 → t.wdtCnt = 500 - n) ∧
    t.ev = s.ev ++ (if 500 ≤ n then [.failsafe] else []) ∧ t.ch = s.ch ∧ t.ls = s.ls

/-- R186: the first `INIT` latches the configuration, writes all 256 table entries, disarms the monitor in `FAILSAFE`,
puts the sequencer in `SEEK_SYNC` and sets `INITED`, and writes nothing else; a second one, whatever its configuration,
changes no state, and the caller still has `ok`. -/
def Obligations.InitSetsUpOnce : Prop :=
  ∀ (s : State) (poly : Byte) (verify : Bool),
    (s.inited = false → exec (.init poly verify) s = .next
      { s with cfg := ⟨poly, verify⟩, table := crcTable poly, fs := true, wdtArmed := false, rxs := .seekSync, rxn := 0,
               inited := true, res := s.res ++ [.ok] }) ∧
    (∀ i, i < 256 → (crcTable poly).read i = some (crcEntry poly (BitVec.ofNat 8 i))) ∧
    (s.inited = true → exec (.init poly verify) s = .next { s with res := s.res ++ [.ok] }) ∧
    (∀ poly' verify' t, exec (.init poly verify) s = .next t →
      exec (.init poly' verify') t = .next { t with res := t.res ++ [.ok] })

/-- R187, R188, R189: the reads hand back the snapshot and the flag, before `INIT` as after it, and change nothing. -/
def Obligations.HostReads : Prop :=
  ∀ s : State,
    (∃ v : Vector (BitVec 16) 16, exec .receiveChannels s = .next { s with res := s.res ++ [.channelData v] } ∧
      ∀ i, i < 16 → (v.toList.getD i 0).toNat = (s.ch.toList.getD i 0).toNat) ∧
    exec .getLinkStatistics s = .next { s with res := s.res ++ [.linkStatistics s.ls] } ∧
    exec .isFailsafe s = .next { s with res := s.res ++ [.bit s.fs] }

/-- R190, R191, R194: a battery or GPS send, with `INITED` = 1, writes its whole frame to `TXBUF` and `TX` and touches
nothing else. -/
def Obligations.FixedRecordSends : Prop :=
  ∀ (s : State) (d : Dest), EngineInv s → s.inited = true →
    (∀ x, exec (.sendBattery d x) s = .next
      (frameSent (encodedFrame d Config.params.typeBattery (batteryPack x) s) s)) ∧
    (∀ x, exec (.sendGps d x) s = .next
      (frameSent (encodedFrame d Config.params.typeGps (gpsPack x) s) s))

/-- R192, R193, R194: an RPM or temperature send of a list that is not empty and whose kept values are in range writes
the frame of the first 19 or 20 entries and touches nothing else. -/
def Obligations.ListSends : Prop :=
  ∀ (s : State) (d : Dest) (sid : Byte), EngineInv s → s.inited = true →
    (∀ vs : List (BitVec 32), vs ≠ [] → (∀ x ∈ vs.take 19, -8388608 ≤ x.toInt ∧ x.toInt ≤ 8388607) →
      exec (.sendRpm d sid vs) s = .next (frameSent (encodedFrame d Config.params.typeRpm
        (sid :: (vs.take 19).flatMap fun x => bePut24 (x.setWidth 24)) s) s)) ∧
    (∀ vs : List (BitVec 16), vs ≠ [] →
      exec (.sendTemp d sid vs) s = .next (frameSent (encodedFrame d Config.params.typeTemp
        (sid :: (vs.take 20).flatMap bePut16) s) s))

/-- R209, R210, R212: a send before `INIT` is refused with `ERR_NOT_INITIALISED` whatever its operands, and after it an
empty list, or a kept RPM value outside 24 bits, with `ERR_RANGE`; an event and an error result, nothing written. -/
def Obligations.RefusedSendsWriteNothing : Prop :=
  ∀ (s : State) (d : Dest) (sid : Byte),
    (s.inited = false →
      (∀ x, exec (.sendBattery d x) s = .next
        { s with ev := s.ev ++ [.errNotInitialised 4], res := s.res ++ [.error .notInitialised] }) ∧
      (∀ x, exec (.sendGps d x) s = .next
        { s with ev := s.ev ++ [.errNotInitialised 5], res := s.res ++ [.error .notInitialised] }) ∧
      (∀ vs, exec (.sendRpm d sid vs) s = .next
        { s with ev := s.ev ++ [.errNotInitialised 6], res := s.res ++ [.error .notInitialised] }) ∧
      (∀ vs, exec (.sendTemp d sid vs) s = .next
        { s with ev := s.ev ++ [.errNotInitialised 7], res := s.res ++ [.error .notInitialised] })) ∧
    (s.inited = true →
      (∀ vs : List (BitVec 32), vs = [] ∨ (∃ x ∈ vs.take 19, x.toInt < -8388608 ∨ 8388607 < x.toInt) →
        exec (.sendRpm d sid vs) s = .next
          { s with ev := s.ev ++ [.errRange 6], res := s.res ++ [.error .range] }) ∧
      exec (.sendTemp d sid []) s = .next { s with ev := s.ev ++ [.errRange 7], res := s.res ++ [.error .range] })

/-- The memory frame of a send that wrote a frame (R57 (e), R194): element `k` of `TXBUF` is byte `k` of the frame, every
element after the frame reads as before, and the other arrays are unchanged. -/
def Obligations.SendFillsTxbuf : Prop :=
  ∀ (s t : State) (i : Instr) (f : List Byte), portOf i = .host → exec i s = .next t → t.tx = s.tx ++ f → f ≠ [] →
    (∀ k, k < f.length → t.txbuf.read k = f[k]?) ∧
    (∀ k, f.length ≤ k → t.txbuf.read k = s.txbuf.read k) ∧
    t.rxbuf = s.rxbuf ∧ t.table = s.table ∧ t.res = s.res ++ [.ok]
end

