-- ==== Sys2Proof/Laws/Memory.lean ====
section
/-! SUPPORT. The storage arrays: every operation keeps the canonical form and the index range, a read after a write
gives the value written, and a write leaves every other element alone. -/

namespace Sys2Proof.Machine

/-- Every index of a canonical array lies above a bound. -/
def Memory.above (n : Nat) (m : Memory) : Prop := ∀ c ∈ m, n < c.1

theorem Memory.wf_cons {c : Host.Cell} {m : Memory} :
    Memory.wf (c :: m) = true ↔ Memory.above c.1 m ∧ Memory.wf m = true := by
  induction m generalizing c with
  | nil => simp [Memory.wf, Memory.above]
  | cons d r ih =>
    simp only [Memory.wf, Bool.and_eq_true, decide_eq_true_eq]
    constructor
    · rintro ⟨hcd, hr⟩
      refine ⟨?_, hr⟩
      intro e he
      rcases List.mem_cons.mp he with rfl | he
      · exact hcd
      · exact Nat.lt_trans hcd ((ih.mp hr).1 e he)
    · rintro ⟨ha, hr⟩
      exact ⟨ha d (by simp), hr⟩

theorem Memory.mem_write {m : Memory} {i : Nat} {v : Byte} {c : Host.Cell} (h : c ∈ m.write i v) :
    c = (i, v) ∨ c ∈ m := by
  induction m with
  | nil => simpa [Memory.write] using h
  | cons d r ih =>
    obtain ⟨j, w⟩ := d
    simp only [Memory.write] at h
    split at h
    · simpa using h
    · split at h
      · rcases List.mem_cons.mp h with h | h
        · exact .inl h
        · exact .inr (List.mem_cons_of_mem _ h)
      · rcases List.mem_cons.mp h with h | h
        · exact .inr (h ▸ List.mem_cons_self ..)
        · exact (ih h).imp id (List.mem_cons_of_mem _)

/-- A write keeps the canonical form. -/
theorem Memory.write_wf {m : Memory} (h : m.wf = true) (i : Nat) (v : Byte) : (m.write i v).wf = true := by
  induction m with
  | nil => rfl
  | cons d r ih =>
    obtain ⟨j, w⟩ := d
    obtain ⟨ha, hr⟩ := Memory.wf_cons.mp h
    simp only [Memory.write]
    split
    · rename_i hij
      refine Memory.wf_cons.mpr ⟨?_, h⟩
      intro e he
      rcases List.mem_cons.mp he with rfl | he
      · exact hij
      · exact Nat.lt_trans hij (ha e he)
    · split
      · rename_i hij
        subst hij
        exact Memory.wf_cons.mpr ⟨ha, hr⟩
      · rename_i h1 h2
        refine Memory.wf_cons.mpr ⟨?_, ih hr⟩
        intro e he
        rcases Memory.mem_write he with rfl | he
        · show j < i
          omega
        · exact ha e he

/-- A write inside the index range keeps the array inside it. -/
theorem Memory.write_below {m : Memory} {n i : Nat} (h : m.below n = true) (hi : i < n) (v : Byte) :
    (m.write i v).below n = true := by
  simp only [Memory.below, List.all_eq_true, decide_eq_true_eq] at h ⊢
  intro c hc
  rcases Memory.mem_write hc with rfl | hc
  · exact hi
  · exact h c hc

/-- The element written reads as the value written. -/
@[simp] theorem Memory.read_write_same (m : Memory) (i : Nat) (v : Byte) : (m.write i v).read i = some v := by
  induction m with
  | nil => simp [Memory.write, Memory.read]
  | cons d r ih =>
    obtain ⟨j, w⟩ := d
    simp only [Memory.write]
    split
    · simp [Memory.read]
    · split
      · simp [Memory.read]
      · rename_i h
        simp [Memory.read, h, ih]

/-- Every other element reads as before. -/
theorem Memory.read_write_other (m : Memory) {i k : Nat} (h : k ≠ i) (v : Byte) :
    (m.write i v).read k = m.read k := by
  induction m with
  | nil => simp [Memory.write, Memory.read, h]
  | cons d r ih =>
    obtain ⟨j, w⟩ := d
    simp only [Memory.write]
    split
    · simp [Memory.read, h]
    · split
      · rename_i hij
        subst hij
        simp [Memory.read, h]
      · simp [Memory.read, ih]

theorem Memory.writeFrom_wf {m : Memory} (h : m.wf = true) (i : Nat) (vs : List Byte) :
    (m.writeFrom i vs).wf = true := by
  induction vs generalizing m i with
  | nil => exact h
  | cons v vs ih => exact ih (Memory.write_wf h i v) (i + 1)

theorem Memory.writeFrom_below {m : Memory} {n : Nat} (h : m.below n = true) (i : Nat) (vs : List Byte)
    (hi : i + vs.length ≤ n) : (m.writeFrom i vs).below n = true := by
  induction vs generalizing m i with
  | nil => exact h
  | cons v vs ih =>
    simp only [List.length_cons] at hi
    exact ih (Memory.write_below h (by omega) v) (i + 1) (by omega)

/-- A row of writes leaves every element outside it alone. -/
theorem Memory.read_writeFrom_outside (m : Memory) (i : Nat) (vs : List Byte) {k : Nat}
    (h : k < i ∨ i + vs.length ≤ k) : (m.writeFrom i vs).read k = m.read k := by
  induction vs generalizing m i with
  | nil => rfl
  | cons v vs ih =>
    simp only [List.length_cons] at h
    rw [Memory.writeFrom, ih _ _ (by omega), Memory.read_write_other _ (by omega)]

/-- A row of writes gives every element of it the value written. -/
theorem Memory.read_writeFrom_inside (m : Memory) (i : Nat) (vs : List Byte) {k : Nat} (h : k < vs.length) :
    (m.writeFrom i vs).read (i + k) = vs[k]? := by
  induction vs generalizing m i k with
  | nil => simp at h
  | cons v vs ih =>
    rw [Memory.writeFrom]
    cases k with
    | zero => rw [Memory.read_writeFrom_outside _ _ _ (by omega)]; simp
    | succ k =>
      have := ih (m.write i v) (i + 1) (k := k) (by simpa using h)
      rw [show i + (k + 1) = i + 1 + k by omega, this, List.getElem?_cons_succ]

theorem Memory.writeFrom_append (m : Memory) (i : Nat) (xs ys : List Byte) :
    m.writeFrom i (xs ++ ys) = (m.writeFrom i xs).writeFrom (i + xs.length) ys := by
  induction xs generalizing m i with
  | nil => rfl
  | cons x xs ih =>
    simp only [List.cons_append, Memory.writeFrom, List.length_cons, ih]
    congr 1
    omega

theorem Memory.cellsFrom_above (n i : Nat) (h : n < i) (bs : List Byte) : Memory.above n (Memory.cellsFrom i bs) := by
  induction bs generalizing i with
  | nil => intro c hc; simp [Memory.cellsFrom] at hc
  | cons b bs ih =>
    intro c hc
    rcases List.mem_cons.mp hc with rfl | hc
    · exact h
    · exact ih (i + 1) (by omega) c hc

theorem Memory.cellsFrom_wf (i : Nat) (bs : List Byte) : (Memory.cellsFrom i bs).wf = true := by
  induction bs generalizing i with
  | nil => rfl
  | cons b bs ih => exact Memory.wf_cons.mpr ⟨Memory.cellsFrom_above i (i + 1) (by omega) bs, ih (i + 1)⟩

theorem Memory.cellsFrom_below (i n : Nat) (bs : List Byte) (h : i + bs.length ≤ n) :
    (Memory.cellsFrom i bs).below n = true := by
  induction bs generalizing i with
  | nil => rfl
  | cons b bs ih =>
    simp only [List.length_cons] at h
    have := ih (i + 1) (by omega)
    simp only [Memory.below, Memory.cellsFrom, List.all_cons, Bool.and_eq_true, decide_eq_true_eq] at this ⊢
    exact ⟨by omega, this⟩

theorem Memory.read_cellsFrom (i k : Nat) (bs : List Byte) : (Memory.cellsFrom i bs).read (i + k) = bs[k]? := by
  induction bs generalizing i k with
  | nil => simp [Memory.cellsFrom, Memory.read]
  | cons b bs ih =>
    cases k with
    | zero => simp [Memory.cellsFrom, Memory.read]
    | succ k =>
      have := ih (i + 1) k
      rw [show i + (k + 1) = i + 1 + k by omega]
      simp only [Memory.cellsFrom, Memory.read, List.getElem?_cons_succ]
      rw [if_neg (by omega), this]

@[simp] theorem Memory.read_ofBytes (k : Nat) (bs : List Byte) : (Memory.ofBytes bs).read k = bs[k]? := by
  simpa [Memory.ofBytes] using Memory.read_cellsFrom 0 k bs

/-- The table a `CRC_BUILD` leaves is in canonical form and inside its range. -/
theorem crcTable_form (poly : Byte) :
    (crcTable poly).wf = true ∧ (crcTable poly).below (arraySize .table) = true :=
  ⟨Memory.cellsFrom_wf 0 _, Memory.cellsFrom_below 0 _ _ (by simp [arraySize])⟩

/-! The checked accesses. -/

theorem memRead_ok {name : ArrayName} {a : Memory} {i : Nat} {v : Byte} :
    memRead name a i = .ok v ↔ i < arraySize name ∧ a.read i = some v := by
  unfold memRead
  split
  · rename_i h
    cases a.read i <;> simp [h]
  · rename_i h
    simp [h]

theorem memWrite_ok {name : ArrayName} {a b : Memory} {i : Nat} {v : Byte} :
    memWrite name a i v = .ok b ↔ i < arraySize name ∧ b = a.write i v := by
  unfold memWrite
  split
  · rename_i h
    simp [h, eq_comm]
  · rename_i h
    simp [h]

/-- A row of writes that stays inside the array is the plain row of writes. -/
theorem memWriteFrom_inside (name : ArrayName) (a : Memory) (i : Nat) (vs : List Byte)
    (h : i + vs.length ≤ arraySize name) : memWriteFrom name a i vs = .ok (a.writeFrom i vs) := by
  induction vs generalizing a i with
  | nil => rfl
  | cons v vs ih =>
    simp only [List.length_cons] at h
    simp only [memWriteFrom, memWrite, if_pos (show i < arraySize name by omega), Memory.writeFrom]
    exact ih _ _ (by omega)

/-- A row of reads gives the bytes the elements hold. -/
theorem memReadFrom_ok (name : ArrayName) (a : Memory) (i : Nat) (vs : List Byte)
    (hsize : i + vs.length ≤ arraySize name) (h : ∀ k, k < vs.length → a.read (i + k) = vs[k]?) :
    memReadFrom name a i vs.length = .ok vs := by
  induction vs generalizing i with
  | nil => rfl
  | cons v vs ih =>
    simp only [List.length_cons] at hsize
    have h0 : memRead name a i = .ok v :=
      memRead_ok.mpr ⟨by omega, by simpa using h 0 (by simp)⟩
    have hr := ih (i + 1) (by omega) (fun k hk => by
      have := h (k + 1) (by simpa using hk)
      simpa [show i + (k + 1) = i + 1 + k by omega] using this)
    simp [List.length_cons, memReadFrom, h0, hr]

/-- What a row of writes has written reads back as it was. -/
theorem memReadFrom_writeFrom (name : ArrayName) (a : Memory) (i : Nat) (vs : List Byte)
    (h : i + vs.length ≤ arraySize name) : memReadFrom name (a.writeFrom i vs) i vs.length = .ok vs :=
  memReadFrom_ok name _ i vs h fun _ hk => Memory.read_writeFrom_inside a i vs hk

/-- An operation that went on with the value of an access had one. -/
theorem withValue_next {α : Type} {x : Except Fault α} {k : α → Out} {t : State} (h : withValue x k = .next t) :
    ∃ v, x = .ok v ∧ k v = .next t := by
  cases x with
  | ok v => exact ⟨v, rfl, h⟩
  | error f => cases h

end Sys2Proof.Machine
end

