-- ==== Sys2Proof/Laws/PerInstr.lean ====
section
/-! SUPPORT. Statements made per instruction. The family `LeadByte`: an encoding is never empty, and its first byte is
what the port it is presented at demands of it (a destination value on the serial side, a 6-bit code at the host port,
an identifier of R76 at the units). -/

namespace Sys2Proof.Laws.LeadByte

open Machine

/-- The first byte of an encoding fits its port. -/
def Statement (i : Instr) : Prop :=
  ∀ P : Params, ∃ b r, encode P i = b :: r ∧
    match portOf i with
    | .serial => b = P.destFc ∨ b = P.destTx
    | .host => b.toNat < 64
    | .unit => (unitOps.lookup b).isSome = true

theorem dval_isDest (P : Params) (d : Dest) : dval P d = P.destFc ∨ dval P d = P.destTx := by
  cases d
  · exact .inl rfl
  · exact .inr rfl

theorem gps (dest : Dest) (payload : List Byte) (crc : Byte) : Statement (.gps dest payload crc) :=
  fun P => ⟨_, _, rfl, dval_isDest P dest⟩

theorem battery (dest : Dest) (payload : List Byte) (crc : Byte) : Statement (.battery dest payload crc) :=
  fun P => ⟨_, _, rfl, dval_isDest P dest⟩

theorem rpm (dest : Dest) (payload : List Byte) (crc : Byte) : Statement (.rpm dest payload crc) :=
  fun P => ⟨_, _, rfl, dval_isDest P dest⟩

theorem temp (dest : Dest) (payload : List Byte) (crc : Byte) : Statement (.temp dest payload crc) :=
  fun P => ⟨_, _, rfl, dval_isDest P dest⟩

theorem link (dest : Dest) (payload : List Byte) (crc : Byte) : Statement (.link dest payload crc) :=
  fun P => ⟨_, _, rfl, dval_isDest P dest⟩

theorem channels (dest : Dest) (payload : List Byte) (crc : Byte) : Statement (.channels dest payload crc) :=
  fun P => ⟨_, _, rfl, dval_isDest P dest⟩

theorem generic (dest : Dest) (type : Byte) (payload : List Byte) (crc : Byte) : Statement (.generic dest type payload crc) :=
  fun P => ⟨_, _, rfl, dval_isDest P dest⟩

theorem init (poly : Byte) (crcVerify : Bool) : Statement (.init poly crcVerify) :=
  fun _ => ⟨_, _, rfl, (by decide : (0x00 : Byte).toNat < 64)⟩

theorem receiveChannels : Statement .receiveChannels :=
  fun _ => ⟨_, _, rfl, (by decide : (0x01 : Byte).toNat < 64)⟩

theorem getLinkStatistics : Statement .getLinkStatistics :=
  fun _ => ⟨_, _, rfl, (by decide : (0x02 : Byte).toNat < 64)⟩

theorem isFailsafe : Statement .isFailsafe :=
  fun _ => ⟨_, _, rfl, (by decide : (0x03 : Byte).toNat < 64)⟩

theorem sendBattery (dest : Dest) (value : Battery) : Statement (.sendBattery dest value) :=
  fun _ => ⟨_, _, rfl, (by decide : (0x04 : Byte).toNat < 64)⟩

theorem sendGps (dest : Dest) (value : Gps) : Statement (.sendGps dest value) :=
  fun _ => ⟨_, _, rfl, (by decide : (0x05 : Byte).toNat < 64)⟩

theorem sendRpm (dest : Dest) (sourceId : Byte) (values : List (BitVec 32)) : Statement (.sendRpm dest sourceId values) :=
  fun _ => ⟨_, _, rfl, (by decide : (0x06 : Byte).toNat < 64)⟩

theorem sendTemp (dest : Dest) (sourceId : Byte) (values : List (BitVec 16)) : Statement (.sendTemp dest sourceId values) :=
  fun _ => ⟨_, _, rfl, (by decide : (0x07 : Byte).toNat < 64)⟩

theorem reservedOp (op : BitVec 6) : Statement (.reservedOp op) :=
  fun _ => ⟨_, _, rfl, by
    show (op.setWidth 8).toNat < 64
    have := op.isLt
    simp only [BitVec.toNat_setWidth]
    omega⟩

theorem crcBuild (poly : Byte) : Statement (.crcBuild poly) :=
  fun _ => ⟨_, _, rfl, (by decide : (unitOps.lookup (0x10 : Byte)).isSome = true)⟩

theorem crcSum (table : Vector Byte 256) (bytes : List Byte) : Statement (.crcSum table bytes) :=
  fun _ => ⟨_, _, rfl, (by decide : (unitOps.lookup (0x11 : Byte)).isSome = true)⟩

theorem rxByte (b : Byte) : Statement (.rxByte b) :=
  fun _ => ⟨_, _, rfl, (by decide : (unitOps.lookup (0x12 : Byte)).isSome = true)⟩

theorem rxChunk (bytes : List Byte) : Statement (.rxChunk bytes) :=
  fun _ => ⟨_, _, rfl, (by decide : (unitOps.lookup (0x13 : Byte)).isSome = true)⟩

theorem frameEncode (dest : Byte) (type : Byte) (payload : List Byte) : Statement (.frameEncode dest type payload) :=
  fun _ => ⟨_, _, rfl, (by decide : (unitOps.lookup (0x14 : Byte)).isSome = true)⟩

theorem chUnpack (p : Vector Byte 22) : Statement (.chUnpack p) :=
  fun _ => ⟨_, _, rfl, (by decide : (unitOps.lookup (0x15 : Byte)).isSome = true)⟩

theorem chPack (v : Vector (BitVec 16) 16) : Statement (.chPack v) :=
  fun _ => ⟨_, _, rfl, (by decide : (unitOps.lookup (0x16 : Byte)).isSome = true)⟩

theorem beGet16 (b : List Byte) (o : Nat) : Statement (.beGet16 b o) :=
  fun _ => ⟨_, _, rfl, (by decide : (unitOps.lookup (0x17 : Byte)).isSome = true)⟩

theorem beGet24 (b : List Byte) (o : Nat) : Statement (.beGet24 b o) :=
  fun _ => ⟨_, _, rfl, (by decide : (unitOps.lookup (0x18 : Byte)).isSome = true)⟩

theorem beGet32 (b : List Byte) (o : Nat) : Statement (.beGet32 b o) :=
  fun _ => ⟨_, _, rfl, (by decide : (unitOps.lookup (0x19 : Byte)).isSome = true)⟩

theorem bePut16 (v : BitVec 16) : Statement (.bePut16 v) :=
  fun _ => ⟨_, _, rfl, (by decide : (unitOps.lookup (0x1A : Byte)).isSome = true)⟩

theorem bePut24 (v : BitVec 24) : Statement (.bePut24 v) :=
  fun _ => ⟨_, _, rfl, (by decide : (unitOps.lookup (0x1B : Byte)).isSome = true)⟩

theorem bePut32 (v : BitVec 32) : Statement (.bePut32 v) :=
  fun _ => ⟨_, _, rfl, (by decide : (unitOps.lookup (0x1C : Byte)).isSome = true)⟩

theorem beGets (w : Width) (b : List Byte) (o : Nat) : Statement (.beGets w b o) :=
  fun _ => ⟨_, _, rfl, (by decide : (unitOps.lookup (0x1D : Byte)).isSome = true)⟩

theorem bePuts (w : Width) (v : BitVec 32) : Statement (.bePuts w v) :=
  fun _ => ⟨_, _, rfl, (by decide : (unitOps.lookup (0x1E : Byte)).isSome = true)⟩

theorem batteryUnpack (p : List Byte) : Statement (.batteryUnpack p) :=
  fun _ => ⟨_, _, rfl, (by decide : (unitOps.lookup (0x20 : Byte)).isSome = true)⟩

theorem batteryPack (value : Battery) : Statement (.batteryPack value) :=
  fun _ => ⟨_, _, rfl, (by decide : (unitOps.lookup (0x21 : Byte)).isSome = true)⟩

theorem gpsUnpack (p : List Byte) : Statement (.gpsUnpack p) :=
  fun _ => ⟨_, _, rfl, (by decide : (unitOps.lookup (0x22 : Byte)).isSome = true)⟩

theorem gpsPack (value : Gps) : Statement (.gpsPack value) :=
  fun _ => ⟨_, _, rfl, (by decide : (unitOps.lookup (0x23 : Byte)).isSome = true)⟩

theorem rpmUnpack (p : List Byte) : Statement (.rpmUnpack p) :=
  fun _ => ⟨_, _, rfl, (by decide : (unitOps.lookup (0x24 : Byte)).isSome = true)⟩

theorem rpmPack (sourceId : Byte) (values : List (BitVec 32)) : Statement (.rpmPack sourceId values) :=
  fun _ => ⟨_, _, rfl, (by decide : (unitOps.lookup (0x25 : Byte)).isSome = true)⟩

theorem tempUnpack (p : List Byte) : Statement (.tempUnpack p) :=
  fun _ => ⟨_, _, rfl, (by decide : (unitOps.lookup (0x26 : Byte)).isSome = true)⟩

theorem tempPack (sourceId : Byte) (values : List (BitVec 16)) : Statement (.tempPack sourceId values) :=
  fun _ => ⟨_, _, rfl, (by decide : (unitOps.lookup (0x27 : Byte)).isSome = true)⟩

theorem linkUnpack (p : List Byte) : Statement (.linkUnpack p) :=
  fun _ => ⟨_, _, rfl, (by decide : (unitOps.lookup (0x28 : Byte)).isSome = true)⟩

theorem linkPack (ls : Vector Byte 10) : Statement (.linkPack ls) :=
  fun _ => ⟨_, _, rfl, (by decide : (unitOps.lookup (0x29 : Byte)).isSome = true)⟩

theorem dispatch (dest : Byte) (type : Byte) (payload : List Byte) : Statement (.dispatch dest type payload) :=
  fun _ => ⟨_, _, rfl, (by decide : (unitOps.lookup (0x2A : Byte)).isSome = true)⟩

theorem stUpdateCh (v : Vector (BitVec 11) 16) : Statement (.stUpdateCh v) :=
  fun _ => ⟨_, _, rfl, (by decide : (unitOps.lookup (0x30 : Byte)).isSome = true)⟩

theorem stReadCh : Statement .stReadCh :=
  fun _ => ⟨_, _, rfl, (by decide : (unitOps.lookup (0x31 : Byte)).isSome = true)⟩

theorem stUpdateLs (ls : Vector Byte 10) : Statement (.stUpdateLs ls) :=
  fun _ => ⟨_, _, rfl, (by decide : (unitOps.lookup (0x32 : Byte)).isSome = true)⟩

theorem stReadLs : Statement .stReadLs :=
  fun _ => ⟨_, _, rfl, (by decide : (unitOps.lookup (0x33 : Byte)).isSome = true)⟩

theorem fsFeed : Statement .fsFeed :=
  fun _ => ⟨_, _, rfl, (by decide : (unitOps.lookup (0x38 : Byte)).isSome = true)⟩

theorem fsExpire : Statement .fsExpire :=
  fun _ => ⟨_, _, rfl, (by decide : (unitOps.lookup (0x39 : Byte)).isSome = true)⟩

theorem tick : Statement .tick :=
  fun _ => ⟨_, _, rfl, (by decide : (unitOps.lookup (0x3A : Byte)).isSome = true)⟩

theorem fsQuery : Statement .fsQuery :=
  fun _ => ⟨_, _, rfl, (by decide : (unitOps.lookup (0x3B : Byte)).isSome = true)⟩

end Sys2Proof.Laws.LeadByte
end

