-- ==== Sys2Proof/Laws/State.lean ====
section
/-! SUPPORT. What each update of the state leaves in each field: one lemma per field per update, all by `rfl`. -/

namespace Sys2Proof.Machine

/-! `raise` -/

@[simp] theorem raise_ch (e : Event) (s : State) : (raise e s).ch = s.ch := rfl
@[simp] theorem raise_ls (e : Event) (s : State) : (raise e s).ls = s.ls := rfl
@[simp] theorem raise_fs (e : Event) (s : State) : (raise e s).fs = s.fs := rfl
@[simp] theorem raise_wdtArmed (e : Event) (s : State) : (raise e s).wdtArmed = s.wdtArmed := rfl
@[simp] theorem raise_wdtCnt (e : Event) (s : State) : (raise e s).wdtCnt = s.wdtCnt := rfl
@[simp] theorem raise_rxs (e : Event) (s : State) : (raise e s).rxs = s.rxs := rfl
@[simp] theorem raise_rxn (e : Event) (s : State) : (raise e s).rxn = s.rxn := rfl
@[simp] theorem raise_rxlen (e : Event) (s : State) : (raise e s).rxlen = s.rxlen := rfl
@[simp] theorem raise_rxbuf (e : Event) (s : State) : (raise e s).rxbuf = s.rxbuf := rfl
@[simp] theorem raise_txbuf (e : Event) (s : State) : (raise e s).txbuf = s.txbuf := rfl
@[simp] theorem raise_table (e : Event) (s : State) : (raise e s).table = s.table := rfl
@[simp] theorem raise_inited (e : Event) (s : State) : (raise e s).inited = s.inited := rfl
@[simp] theorem raise_cfg (e : Event) (s : State) : (raise e s).cfg = s.cfg := rfl
@[simp] theorem raise_tx (e : Event) (s : State) : (raise e s).tx = s.tx := rfl
@[simp] theorem raise_ev (e : Event) (s : State) : (raise e s).ev = s.ev ++ [e] := rfl
@[simp] theorem raise_res (e : Event) (s : State) : (raise e s).res = s.res := rfl
@[simp] theorem raise_src (e : Event) (s : State) : (raise e s).src = s.src := rfl
@[simp] theorem raise_inbox (e : Event) (s : State) : (raise e s).inbox = s.inbox := rfl

/-! `emitEvent` -/

@[simp] theorem emitEvent_ch (e : Event) (s : State) : (emitEvent e s).ch = s.ch := rfl
@[simp] theorem emitEvent_ls (e : Event) (s : State) : (emitEvent e s).ls = s.ls := rfl
@[simp] theorem emitEvent_fs (e : Event) (s : State) : (emitEvent e s).fs = s.fs := rfl
@[simp] theorem emitEvent_wdtArmed (e : Event) (s : State) : (emitEvent e s).wdtArmed = s.wdtArmed := rfl
@[simp] theorem emitEvent_wdtCnt (e : Event) (s : State) : (emitEvent e s).wdtCnt = s.wdtCnt := rfl
@[simp] theorem emitEvent_rxs (e : Event) (s : State) : (emitEvent e s).rxs = s.rxs := rfl
@[simp] theorem emitEvent_rxn (e : Event) (s : State) : (emitEvent e s).rxn = s.rxn := rfl
@[simp] theorem emitEvent_rxlen (e : Event) (s : State) : (emitEvent e s).rxlen = s.rxlen := rfl
@[simp] theorem emitEvent_rxbuf (e : Event) (s : State) : (emitEvent e s).rxbuf = s.rxbuf := rfl
@[simp] theorem emitEvent_txbuf (e : Event) (s : State) : (emitEvent e s).txbuf = s.txbuf := rfl
@[simp] theorem emitEvent_table (e : Event) (s : State) : (emitEvent e s).table = s.table := rfl
@[simp] theorem emitEvent_inited (e : Event) (s : State) : (emitEvent e s).inited = s.inited := rfl
@[simp] theorem emitEvent_cfg (e : Event) (s : State) : (emitEvent e s).cfg = s.cfg := rfl
@[simp] theorem emitEvent_tx (e : Event) (s : State) : (emitEvent e s).tx = s.tx := rfl
@[simp] theorem emitEvent_ev (e : Event) (s : State) : (emitEvent e s).ev = s.ev ++ [e] := rfl
@[simp] theorem emitEvent_res (e : Event) (s : State) : (emitEvent e s).res = s.res := rfl
@[simp] theorem emitEvent_src (e : Event) (s : State) : (emitEvent e s).src = s.src := rfl
@[simp] theorem emitEvent_inbox (e : Event) (s : State) : (emitEvent e s).inbox = s.inbox := rfl

/-! `give` -/

@[simp] theorem give_ch (r : Result) (s : State) : (give r s).ch = s.ch := rfl
@[simp] theorem give_ls (r : Result) (s : State) : (give r s).ls = s.ls := rfl
@[simp] theorem give_fs (r : Result) (s : State) : (give r s).fs = s.fs := rfl
@[simp] theorem give_wdtArmed (r : Result) (s : State) : (give r s).wdtArmed = s.wdtArmed := rfl
@[simp] theorem give_wdtCnt (r : Result) (s : State) : (give r s).wdtCnt = s.wdtCnt := rfl
@[simp] theorem give_rxs (r : Result) (s : State) : (give r s).rxs = s.rxs := rfl
@[simp] theorem give_rxn (r : Result) (s : State) : (give r s).rxn = s.rxn := rfl
@[simp] theorem give_rxlen (r : Result) (s : State) : (give r s).rxlen = s.rxlen := rfl
@[simp] theorem give_rxbuf (r : Result) (s : State) : (give r s).rxbuf = s.rxbuf := rfl
@[simp] theorem give_txbuf (r : Result) (s : State) : (give r s).txbuf = s.txbuf := rfl
@[simp] theorem give_table (r : Result) (s : State) : (give r s).table = s.table := rfl
@[simp] theorem give_inited (r : Result) (s : State) : (give r s).inited = s.inited := rfl
@[simp] theorem give_cfg (r : Result) (s : State) : (give r s).cfg = s.cfg := rfl
@[simp] theorem give_tx (r : Result) (s : State) : (give r s).tx = s.tx := rfl
@[simp] theorem give_ev (r : Result) (s : State) : (give r s).ev = s.ev := rfl
@[simp] theorem give_res (r : Result) (s : State) : (give r s).res = s.res ++ [r] := rfl
@[simp] theorem give_src (r : Result) (s : State) : (give r s).src = s.src := rfl
@[simp] theorem give_inbox (r : Result) (s : State) : (give r s).inbox = s.inbox := rfl

/-! `updateChannels` -/

@[simp] theorem updateChannels_ch (v : Vector (BitVec 11) 16) (s : State) : (updateChannels v s).ch = v := rfl
@[simp] theorem updateChannels_ls (v : Vector (BitVec 11) 16) (s : State) : (updateChannels v s).ls = s.ls := rfl
@[simp] theorem updateChannels_fs (v : Vector (BitVec 11) 16) (s : State) : (updateChannels v s).fs = s.fs := rfl
@[simp] theorem updateChannels_wdtArmed (v : Vector (BitVec 11) 16) (s : State) : (updateChannels v s).wdtArmed = s.wdtArmed := rfl
@[simp] theorem updateChannels_wdtCnt (v : Vector (BitVec 11) 16) (s : State) : (updateChannels v s).wdtCnt = s.wdtCnt := rfl
@[simp] theorem updateChannels_rxs (v : Vector (BitVec 11) 16) (s : State) : (updateChannels v s).rxs = s.rxs := rfl
@[simp] theorem updateChannels_rxn (v : Vector (BitVec 11) 16) (s : State) : (updateChannels v s).rxn = s.rxn := rfl
@[simp] theorem updateChannels_rxlen (v : Vector (BitVec 11) 16) (s : State) : (updateChannels v s).rxlen = s.rxlen := rfl
@[simp] theorem updateChannels_rxbuf (v : Vector (BitVec 11) 16) (s : State) : (updateChannels v s).rxbuf = s.rxbuf := rfl
@[simp] theorem updateChannels_txbuf (v : Vector (BitVec 11) 16) (s : State) : (updateChannels v s).txbuf = s.txbuf := rfl
@[simp] theorem updateChannels_table (v : Vector (BitVec 11) 16) (s : State) : (updateChannels v s).table = s.table := rfl
@[simp] theorem updateChannels_inited (v : Vector (BitVec 11) 16) (s : State) : (updateChannels v s).inited = s.inited := rfl
@[simp] theorem updateChannels_cfg (v : Vector (BitVec 11) 16) (s : State) : (updateChannels v s).cfg = s.cfg := rfl
@[simp] theorem updateChannels_tx (v : Vector (BitVec 11) 16) (s : State) : (updateChannels v s).tx = s.tx := rfl
@[simp] theorem updateChannels_ev (v : Vector (BitVec 11) 16) (s : State) : (updateChannels v s).ev = s.ev := rfl
@[simp] theorem updateChannels_res (v : Vector (BitVec 11) 16) (s : State) : (updateChannels v s).res = s.res := rfl
@[simp] theorem updateChannels_src (v : Vector (BitVec 11) 16) (s : State) : (updateChannels v s).src = s.src := rfl
@[simp] theorem updateChannels_inbox (v : Vector (BitVec 11) 16) (s : State) : (updateChannels v s).inbox = s.inbox := rfl

/-! `updateLinkStats` -/

@[simp] theorem updateLinkStats_ch (v : Vector Byte 10) (s : State) : (updateLinkStats v s).ch = s.ch := rfl
@[simp] theorem updateLinkStats_ls (v : Vector Byte 10) (s : State) : (updateLinkStats v s).ls = v := rfl
@[simp] theorem updateLinkStats_fs (v : Vector Byte 10) (s : State) : (updateLinkStats v s).fs = s.fs := rfl
@[simp] theorem updateLinkStats_wdtArmed (v : Vector Byte 10) (s : State) : (updateLinkStats v s).wdtArmed = s.wdtArmed := rfl
@[simp] theorem updateLinkStats_wdtCnt (v : Vector Byte 10) (s : State) : (updateLinkStats v s).wdtCnt = s.wdtCnt := rfl
@[simp] theorem updateLinkStats_rxs (v : Vector Byte 10) (s : State) : (updateLinkStats v s).rxs = s.rxs := rfl
@[simp] theorem updateLinkStats_rxn (v : Vector Byte 10) (s : State) : (updateLinkStats v s).rxn = s.rxn := rfl
@[simp] theorem updateLinkStats_rxlen (v : Vector Byte 10) (s : State) : (updateLinkStats v s).rxlen = s.rxlen := rfl
@[simp] theorem updateLinkStats_rxbuf (v : Vector Byte 10) (s : State) : (updateLinkStats v s).rxbuf = s.rxbuf := rfl
@[simp] theorem updateLinkStats_txbuf (v : Vector Byte 10) (s : State) : (updateLinkStats v s).txbuf = s.txbuf := rfl
@[simp] theorem updateLinkStats_table (v : Vector Byte 10) (s : State) : (updateLinkStats v s).table = s.table := rfl
@[simp] theorem updateLinkStats_inited (v : Vector Byte 10) (s : State) : (updateLinkStats v s).inited = s.inited := rfl
@[simp] theorem updateLinkStats_cfg (v : Vector Byte 10) (s : State) : (updateLinkStats v s).cfg = s.cfg := rfl
@[simp] theorem updateLinkStats_tx (v : Vector Byte 10) (s : State) : (updateLinkStats v s).tx = s.tx := rfl
@[simp] theorem updateLinkStats_ev (v : Vector Byte 10) (s : State) : (updateLinkStats v s).ev = s.ev := rfl
@[simp] theorem updateLinkStats_res (v : Vector Byte 10) (s : State) : (updateLinkStats v s).res = s.res := rfl
@[simp] theorem updateLinkStats_src (v : Vector Byte 10) (s : State) : (updateLinkStats v s).src = s.src := rfl
@[simp] theorem updateLinkStats_inbox (v : Vector Byte 10) (s : State) : (updateLinkStats v s).inbox = s.inbox := rfl

/-! `keepAtSource` -/

@[simp] theorem keepAtSource_ch (bs : List Byte) (s : State) : (keepAtSource bs s).ch = s.ch := rfl
@[simp] theorem keepAtSource_ls (bs : List Byte) (s : State) : (keepAtSource bs s).ls = s.ls := rfl
@[simp] theorem keepAtSource_fs (bs : List Byte) (s : State) : (keepAtSource bs s).fs = s.fs := rfl
@[simp] theorem keepAtSource_wdtArmed (bs : List Byte) (s : State) : (keepAtSource bs s).wdtArmed = s.wdtArmed := rfl
@[simp] theorem keepAtSource_wdtCnt (bs : List Byte) (s : State) : (keepAtSource bs s).wdtCnt = s.wdtCnt := rfl
@[simp] theorem keepAtSource_rxs (bs : List Byte) (s : State) : (keepAtSource bs s).rxs = s.rxs := rfl
@[simp] theorem keepAtSource_rxn (bs : List Byte) (s : State) : (keepAtSource bs s).rxn = s.rxn := rfl
@[simp] theorem keepAtSource_rxlen (bs : List Byte) (s : State) : (keepAtSource bs s).rxlen = s.rxlen := rfl
@[simp] theorem keepAtSource_rxbuf (bs : List Byte) (s : State) : (keepAtSource bs s).rxbuf = s.rxbuf := rfl
@[simp] theorem keepAtSource_txbuf (bs : List Byte) (s : State) : (keepAtSource bs s).txbuf = s.txbuf := rfl
@[simp] theorem keepAtSource_table (bs : List Byte) (s : State) : (keepAtSource bs s).table = s.table := rfl
@[simp] theorem keepAtSource_inited (bs : List Byte) (s : State) : (keepAtSource bs s).inited = s.inited := rfl
@[simp] theorem keepAtSource_cfg (bs : List Byte) (s : State) : (keepAtSource bs s).cfg = s.cfg := rfl
@[simp] theorem keepAtSource_tx (bs : List Byte) (s : State) : (keepAtSource bs s).tx = s.tx := rfl
@[simp] theorem keepAtSource_ev (bs : List Byte) (s : State) : (keepAtSource bs s).ev = s.ev := rfl
@[simp] theorem keepAtSource_res (bs : List Byte) (s : State) : (keepAtSource bs s).res = s.res := rfl
@[simp] theorem keepAtSource_src (bs : List Byte) (s : State) : (keepAtSource bs s).src = s.src ++ bs := rfl
@[simp] theorem keepAtSource_inbox (bs : List Byte) (s : State) : (keepAtSource bs s).inbox = s.inbox := rfl

/-! `setSource` -/

@[simp] theorem setSource_ch (bs : List Byte) (s : State) : (setSource bs s).ch = s.ch := rfl
@[simp] theorem setSource_ls (bs : List Byte) (s : State) : (setSource bs s).ls = s.ls := rfl
@[simp] theorem setSource_fs (bs : List Byte) (s : State) : (setSource bs s).fs = s.fs := rfl
@[simp] theorem setSource_wdtArmed (bs : List Byte) (s : State) : (setSource bs s).wdtArmed = s.wdtArmed := rfl
@[simp] theorem setSource_wdtCnt (bs : List Byte) (s : State) : (setSource bs s).wdtCnt = s.wdtCnt := rfl
@[simp] theorem setSource_rxs (bs : List Byte) (s : State) : (setSource bs s).rxs = s.rxs := rfl
@[simp] theorem setSource_rxn (bs : List Byte) (s : State) : (setSource bs s).rxn = s.rxn := rfl
@[simp] theorem setSource_rxlen (bs : List Byte) (s : State) : (setSource bs s).rxlen = s.rxlen := rfl
@[simp] theorem setSource_rxbuf (bs : List Byte) (s : State) : (setSource bs s).rxbuf = s.rxbuf := rfl
@[simp] theorem setSource_txbuf (bs : List Byte) (s : State) : (setSource bs s).txbuf = s.txbuf := rfl
@[simp] theorem setSource_table (bs : List Byte) (s : State) : (setSource bs s).table = s.table := rfl
@[simp] theorem setSource_inited (bs : List Byte) (s : State) : (setSource bs s).inited = s.inited := rfl
@[simp] theorem setSource_cfg (bs : List Byte) (s : State) : (setSource bs s).cfg = s.cfg := rfl
@[simp] theorem setSource_tx (bs : List Byte) (s : State) : (setSource bs s).tx = s.tx := rfl
@[simp] theorem setSource_ev (bs : List Byte) (s : State) : (setSource bs s).ev = s.ev := rfl
@[simp] theorem setSource_res (bs : List Byte) (s : State) : (setSource bs s).res = s.res := rfl
@[simp] theorem setSource_src (bs : List Byte) (s : State) : (setSource bs s).src = bs := rfl
@[simp] theorem setSource_inbox (bs : List Byte) (s : State) : (setSource bs s).inbox = s.inbox := rfl

/-! `txWrite` -/

@[simp] theorem txWrite_ch (bs : List Byte) (s : State) : (txWrite bs s).ch = s.ch := rfl
@[simp] theorem txWrite_ls (bs : List Byte) (s : State) : (txWrite bs s).ls = s.ls := rfl
@[simp] theorem txWrite_fs (bs : List Byte) (s : State) : (txWrite bs s).fs = s.fs := rfl
@[simp] theorem txWrite_wdtArmed (bs : List Byte) (s : State) : (txWrite bs s).wdtArmed = s.wdtArmed := rfl
@[simp] theorem txWrite_wdtCnt (bs : List Byte) (s : State) : (txWrite bs s).wdtCnt = s.wdtCnt := rfl
@[simp] theorem txWrite_rxs (bs : List Byte) (s : State) : (txWrite bs s).rxs = s.rxs := rfl
@[simp] theorem txWrite_rxn (bs : List Byte) (s : State) : (txWrite bs s).rxn = s.rxn := rfl
@[simp] theorem txWrite_rxlen (bs : List Byte) (s : State) : (txWrite bs s).rxlen = s.rxlen := rfl
@[simp] theorem txWrite_rxbuf (bs : List Byte) (s : State) : (txWrite bs s).rxbuf = s.rxbuf := rfl
@[simp] theorem txWrite_txbuf (bs : List Byte) (s : State) : (txWrite bs s).txbuf = s.txbuf := rfl
@[simp] theorem txWrite_table (bs : List Byte) (s : State) : (txWrite bs s).table = s.table := rfl
@[simp] theorem txWrite_inited (bs : List Byte) (s : State) : (txWrite bs s).inited = s.inited := rfl
@[simp] theorem txWrite_cfg (bs : List Byte) (s : State) : (txWrite bs s).cfg = s.cfg := rfl
@[simp] theorem txWrite_tx (bs : List Byte) (s : State) : (txWrite bs s).tx = s.tx ++ bs := rfl
@[simp] theorem txWrite_ev (bs : List Byte) (s : State) : (txWrite bs s).ev = s.ev := rfl
@[simp] theorem txWrite_res (bs : List Byte) (s : State) : (txWrite bs s).res = s.res := rfl
@[simp] theorem txWrite_src (bs : List Byte) (s : State) : (txWrite bs s).src = s.src := rfl
@[simp] theorem txWrite_inbox (bs : List Byte) (s : State) : (txWrite bs s).inbox = s.inbox := rfl

/-! `setTxbuf` -/

@[simp] theorem setTxbuf_ch (a : Memory) (s : State) : (setTxbuf a s).ch = s.ch := rfl
@[simp] theorem setTxbuf_ls (a : Memory) (s : State) : (setTxbuf a s).ls = s.ls := rfl
@[simp] theorem setTxbuf_fs (a : Memory) (s : State) : (setTxbuf a s).fs = s.fs := rfl
@[simp] theorem setTxbuf_wdtArmed (a : Memory) (s : State) : (setTxbuf a s).wdtArmed = s.wdtArmed := rfl
@[simp] theorem setTxbuf_wdtCnt (a : Memory) (s : State) : (setTxbuf a s).wdtCnt = s.wdtCnt := rfl
@[simp] theorem setTxbuf_rxs (a : Memory) (s : State) : (setTxbuf a s).rxs = s.rxs := rfl
@[simp] theorem setTxbuf_rxn (a : Memory) (s : State) : (setTxbuf a s).rxn = s.rxn := rfl
@[simp] theorem setTxbuf_rxlen (a : Memory) (s : State) : (setTxbuf a s).rxlen = s.rxlen := rfl
@[simp] theorem setTxbuf_rxbuf (a : Memory) (s : State) : (setTxbuf a s).rxbuf = s.rxbuf := rfl
@[simp] theorem setTxbuf_txbuf (a : Memory) (s : State) : (setTxbuf a s).txbuf = a := rfl
@[simp] theorem setTxbuf_table (a : Memory) (s : State) : (setTxbuf a s).table = s.table := rfl
@[simp] theorem setTxbuf_inited (a : Memory) (s : State) : (setTxbuf a s).inited = s.inited := rfl
@[simp] theorem setTxbuf_cfg (a : Memory) (s : State) : (setTxbuf a s).cfg = s.cfg := rfl
@[simp] theorem setTxbuf_tx (a : Memory) (s : State) : (setTxbuf a s).tx = s.tx := rfl
@[simp] theorem setTxbuf_ev (a : Memory) (s : State) : (setTxbuf a s).ev = s.ev := rfl
@[simp] theorem setTxbuf_res (a : Memory) (s : State) : (setTxbuf a s).res = s.res := rfl
@[simp] theorem setTxbuf_src (a : Memory) (s : State) : (setTxbuf a s).src = s.src := rfl
@[simp] theorem setTxbuf_inbox (a : Memory) (s : State) : (setTxbuf a s).inbox = s.inbox := rfl

/-! `holdSync` -/

@[simp] theorem holdSync_ch (b : Byte) (s : State) : (holdSync b s).ch = s.ch := rfl
@[simp] theorem holdSync_ls (b : Byte) (s : State) : (holdSync b s).ls = s.ls := rfl
@[simp] theorem holdSync_fs (b : Byte) (s : State) : (holdSync b s).fs = s.fs := rfl
@[simp] theorem holdSync_wdtArmed (b : Byte) (s : State) : (holdSync b s).wdtArmed = s.wdtArmed := rfl
@[simp] theorem holdSync_wdtCnt (b : Byte) (s : State) : (holdSync b s).wdtCnt = s.wdtCnt := rfl
@[simp] theorem holdSync_rxs (b : Byte) (s : State) : (holdSync b s).rxs = .readLength := rfl
@[simp] theorem holdSync_rxn (b : Byte) (s : State) : (holdSync b s).rxn = 1 := rfl
@[simp] theorem holdSync_rxlen (b : Byte) (s : State) : (holdSync b s).rxlen = s.rxlen := rfl
@[simp] theorem holdSync_rxbuf (b : Byte) (s : State) : (holdSync b s).rxbuf = s.rxbuf.write 0 b := rfl
@[simp] theorem holdSync_txbuf (b : Byte) (s : State) : (holdSync b s).txbuf = s.txbuf := rfl
@[simp] theorem holdSync_table (b : Byte) (s : State) : (holdSync b s).table = s.table := rfl
@[simp] theorem holdSync_inited (b : Byte) (s : State) : (holdSync b s).inited = s.inited := rfl
@[simp] theorem holdSync_cfg (b : Byte) (s : State) : (holdSync b s).cfg = s.cfg := rfl
@[simp] theorem holdSync_tx (b : Byte) (s : State) : (holdSync b s).tx = s.tx := rfl
@[simp] theorem holdSync_ev (b : Byte) (s : State) : (holdSync b s).ev = s.ev := rfl
@[simp] theorem holdSync_res (b : Byte) (s : State) : (holdSync b s).res = s.res := rfl
@[simp] theorem holdSync_src (b : Byte) (s : State) : (holdSync b s).src = s.src := rfl
@[simp] theorem holdSync_inbox (b : Byte) (s : State) : (holdSync b s).inbox = s.inbox := rfl

/-! `holdLength` -/

@[simp] theorem holdLength_ch (b : Byte) (s : State) : (holdLength b s).ch = s.ch := rfl
@[simp] theorem holdLength_ls (b : Byte) (s : State) : (holdLength b s).ls = s.ls := rfl
@[simp] theorem holdLength_fs (b : Byte) (s : State) : (holdLength b s).fs = s.fs := rfl
@[simp] theorem holdLength_wdtArmed (b : Byte) (s : State) : (holdLength b s).wdtArmed = s.wdtArmed := rfl
@[simp] theorem holdLength_wdtCnt (b : Byte) (s : State) : (holdLength b s).wdtCnt = s.wdtCnt := rfl
@[simp] theorem holdLength_rxs (b : Byte) (s : State) : (holdLength b s).rxs = .awaitBody := rfl
@[simp] theorem holdLength_rxn (b : Byte) (s : State) : (holdLength b s).rxn = 2 := rfl
@[simp] theorem holdLength_rxlen (b : Byte) (s : State) : (holdLength b s).rxlen = b := rfl
@[simp] theorem holdLength_rxbuf (b : Byte) (s : State) : (holdLength b s).rxbuf = s.rxbuf.write 1 b := rfl
@[simp] theorem holdLength_txbuf (b : Byte) (s : State) : (holdLength b s).txbuf = s.txbuf := rfl
@[simp] theorem holdLength_table (b : Byte) (s : State) : (holdLength b s).table = s.table := rfl
@[simp] theorem holdLength_inited (b : Byte) (s : State) : (holdLength b s).inited = s.inited := rfl
@[simp] theorem holdLength_cfg (b : Byte) (s : State) : (holdLength b s).cfg = s.cfg := rfl
@[simp] theorem holdLength_tx (b : Byte) (s : State) : (holdLength b s).tx = s.tx := rfl
@[simp] theorem holdLength_ev (b : Byte) (s : State) : (holdLength b s).ev = s.ev := rfl
@[simp] theorem holdLength_res (b : Byte) (s : State) : (holdLength b s).res = s.res := rfl
@[simp] theorem holdLength_src (b : Byte) (s : State) : (holdLength b s).src = s.src := rfl
@[simp] theorem holdLength_inbox (b : Byte) (s : State) : (holdLength b s).inbox = s.inbox := rfl

/-! `seekAgain` -/

@[simp] theorem seekAgain_ch (s : State) : (seekAgain s).ch = s.ch := rfl
@[simp] theorem seekAgain_ls (s : State) : (seekAgain s).ls = s.ls := rfl
@[simp] theorem seekAgain_fs (s : State) : (seekAgain s).fs = s.fs := rfl
@[simp] theorem seekAgain_wdtArmed (s : State) : (seekAgain s).wdtArmed = s.wdtArmed := rfl
@[simp] theorem seekAgain_wdtCnt (s : State) : (seekAgain s).wdtCnt = s.wdtCnt := rfl
@[simp] theorem seekAgain_rxs (s : State) : (seekAgain s).rxs = .seekSync := rfl
@[simp] theorem seekAgain_rxn (s : State) : (seekAgain s).rxn = 0 := rfl
@[simp] theorem seekAgain_rxlen (s : State) : (seekAgain s).rxlen = s.rxlen := rfl
@[simp] theorem seekAgain_rxbuf (s : State) : (seekAgain s).rxbuf = s.rxbuf := rfl
@[simp] theorem seekAgain_txbuf (s : State) : (seekAgain s).txbuf = s.txbuf := rfl
@[simp] theorem seekAgain_table (s : State) : (seekAgain s).table = s.table := rfl
@[simp] theorem seekAgain_inited (s : State) : (seekAgain s).inited = s.inited := rfl
@[simp] theorem seekAgain_cfg (s : State) : (seekAgain s).cfg = s.cfg := rfl
@[simp] theorem seekAgain_tx (s : State) : (seekAgain s).tx = s.tx := rfl
@[simp] theorem seekAgain_ev (s : State) : (seekAgain s).ev = s.ev := rfl
@[simp] theorem seekAgain_res (s : State) : (seekAgain s).res = s.res := rfl
@[simp] theorem seekAgain_src (s : State) : (seekAgain s).src = s.src := rfl
@[simp] theorem seekAgain_inbox (s : State) : (seekAgain s).inbox = s.inbox := rfl

/-! `setRxbuf` -/

@[simp] theorem setRxbuf_ch (a : Memory) (s : State) : (setRxbuf a s).ch = s.ch := rfl
@[simp] theorem setRxbuf_ls (a : Memory) (s : State) : (setRxbuf a s).ls = s.ls := rfl
@[simp] theorem setRxbuf_fs (a : Memory) (s : State) : (setRxbuf a s).fs = s.fs := rfl
@[simp] theorem setRxbuf_wdtArmed (a : Memory) (s : State) : (setRxbuf a s).wdtArmed = s.wdtArmed := rfl
@[simp] theorem setRxbuf_wdtCnt (a : Memory) (s : State) : (setRxbuf a s).wdtCnt = s.wdtCnt := rfl
@[simp] theorem setRxbuf_rxs (a : Memory) (s : State) : (setRxbuf a s).rxs = s.rxs := rfl
@[simp] theorem setRxbuf_rxn (a : Memory) (s : State) : (setRxbuf a s).rxn = s.rxn := rfl
@[simp] theorem setRxbuf_rxlen (a : Memory) (s : State) : (setRxbuf a s).rxlen = s.rxlen := rfl
@[simp] theorem setRxbuf_rxbuf (a : Memory) (s : State) : (setRxbuf a s).rxbuf = a := rfl
@[simp] theorem setRxbuf_txbuf (a : Memory) (s : State) : (setRxbuf a s).txbuf = s.txbuf := rfl
@[simp] theorem setRxbuf_table (a : Memory) (s : State) : (setRxbuf a s).table = s.table := rfl
@[simp] theorem setRxbuf_inited (a : Memory) (s : State) : (setRxbuf a s).inited = s.inited := rfl
@[simp] theorem setRxbuf_cfg (a : Memory) (s : State) : (setRxbuf a s).cfg = s.cfg := rfl
@[simp] theorem setRxbuf_tx (a : Memory) (s : State) : (setRxbuf a s).tx = s.tx := rfl
@[simp] theorem setRxbuf_ev (a : Memory) (s : State) : (setRxbuf a s).ev = s.ev := rfl
@[simp] theorem setRxbuf_res (a : Memory) (s : State) : (setRxbuf a s).res = s.res := rfl
@[simp] theorem setRxbuf_src (a : Memory) (s : State) : (setRxbuf a s).src = s.src := rfl
@[simp] theorem setRxbuf_inbox (a : Memory) (s : State) : (setRxbuf a s).inbox = s.inbox := rfl

/-! `setRxn` -/

@[simp] theorem setRxn_ch (n : Nat) (s : State) : (setRxn n s).ch = s.ch := rfl
@[simp] theorem setRxn_ls (n : Nat) (s : State) : (setRxn n s).ls = s.ls := rfl
@[simp] theorem setRxn_fs (n : Nat) (s : State) : (setRxn n s).fs = s.fs := rfl
@[simp] theorem setRxn_wdtArmed (n : Nat) (s : State) : (setRxn n s).wdtArmed = s.wdtArmed := rfl
@[simp] theorem setRxn_wdtCnt (n : Nat) (s : State) : (setRxn n s).wdtCnt = s.wdtCnt := rfl
@[simp] theorem setRxn_rxs (n : Nat) (s : State) : (setRxn n s).rxs = s.rxs := rfl
@[simp] theorem setRxn_rxn (n : Nat) (s : State) : (setRxn n s).rxn = n := rfl
@[simp] theorem setRxn_rxlen (n : Nat) (s : State) : (setRxn n s).rxlen = s.rxlen := rfl
@[simp] theorem setRxn_rxbuf (n : Nat) (s : State) : (setRxn n s).rxbuf = s.rxbuf := rfl
@[simp] theorem setRxn_txbuf (n : Nat) (s : State) : (setRxn n s).txbuf = s.txbuf := rfl
@[simp] theorem setRxn_table (n : Nat) (s : State) : (setRxn n s).table = s.table := rfl
@[simp] theorem setRxn_inited (n : Nat) (s : State) : (setRxn n s).inited = s.inited := rfl
@[simp] theorem setRxn_cfg (n : Nat) (s : State) : (setRxn n s).cfg = s.cfg := rfl
@[simp] theorem setRxn_tx (n : Nat) (s : State) : (setRxn n s).tx = s.tx := rfl
@[simp] theorem setRxn_ev (n : Nat) (s : State) : (setRxn n s).ev = s.ev := rfl
@[simp] theorem setRxn_res (n : Nat) (s : State) : (setRxn n s).res = s.res := rfl
@[simp] theorem setRxn_src (n : Nat) (s : State) : (setRxn n s).src = s.src := rfl
@[simp] theorem setRxn_inbox (n : Nat) (s : State) : (setRxn n s).inbox = s.inbox := rfl

/-! `feedWatchdog` -/

@[simp] theorem feedWatchdog_ch (P : Params) (s : State) : (feedWatchdog P s).ch = s.ch := rfl
@[simp] theorem feedWatchdog_ls (P : Params) (s : State) : (feedWatchdog P s).ls = s.ls := rfl
@[simp] theorem feedWatchdog_fs (P : Params) (s : State) : (feedWatchdog P s).fs = false := rfl
@[simp] theorem feedWatchdog_wdtArmed (P : Params) (s : State) : (feedWatchdog P s).wdtArmed = true := rfl
@[simp] theorem feedWatchdog_wdtCnt (P : Params) (s : State) : (feedWatchdog P s).wdtCnt = P.timeoutTicks := rfl
@[simp] theorem feedWatchdog_rxs (P : Params) (s : State) : (feedWatchdog P s).rxs = s.rxs := rfl
@[simp] theorem feedWatchdog_rxn (P : Params) (s : State) : (feedWatchdog P s).rxn = s.rxn := rfl
@[simp] theorem feedWatchdog_rxlen (P : Params) (s : State) : (feedWatchdog P s).rxlen = s.rxlen := rfl
@[simp] theorem feedWatchdog_rxbuf (P : Params) (s : State) : (feedWatchdog P s).rxbuf = s.rxbuf := rfl
@[simp] theorem feedWatchdog_txbuf (P : Params) (s : State) : (feedWatchdog P s).txbuf = s.txbuf := rfl
@[simp] theorem feedWatchdog_table (P : Params) (s : State) : (feedWatchdog P s).table = s.table := rfl
@[simp] theorem feedWatchdog_inited (P : Params) (s : State) : (feedWatchdog P s).inited = s.inited := rfl
@[simp] theorem feedWatchdog_cfg (P : Params) (s : State) : (feedWatchdog P s).cfg = s.cfg := rfl
@[simp] theorem feedWatchdog_tx (P : Params) (s : State) : (feedWatchdog P s).tx = s.tx := rfl
@[simp] theorem feedWatchdog_ev (P : Params) (s : State) : (feedWatchdog P s).ev = s.ev := rfl
@[simp] theorem feedWatchdog_res (P : Params) (s : State) : (feedWatchdog P s).res = s.res := rfl
@[simp] theorem feedWatchdog_src (P : Params) (s : State) : (feedWatchdog P s).src = s.src := rfl
@[simp] theorem feedWatchdog_inbox (P : Params) (s : State) : (feedWatchdog P s).inbox = s.inbox := rfl

/-! `expireWatchdog` -/

@[simp] theorem expireWatchdog_ch (s : State) : (expireWatchdog s).ch = s.ch := rfl
@[simp] theorem expireWatchdog_ls (s : State) : (expireWatchdog s).ls = s.ls := rfl
@[simp] theorem expireWatchdog_fs (s : State) : (expireWatchdog s).fs = true := rfl
@[simp] theorem expireWatchdog_wdtArmed (s : State) : (expireWatchdog s).wdtArmed = false := rfl
@[simp] theorem expireWatchdog_wdtCnt (s : State) : (expireWatchdog s).wdtCnt = s.wdtCnt := rfl
@[simp] theorem expireWatchdog_rxs (s : State) : (expireWatchdog s).rxs = s.rxs := rfl
@[simp] theorem expireWatchdog_rxn (s : State) : (expireWatchdog s).rxn = s.rxn := rfl
@[simp] theorem expireWatchdog_rxlen (s : State) : (expireWatchdog s).rxlen = s.rxlen := rfl
@[simp] theorem expireWatchdog_rxbuf (s : State) : (expireWatchdog s).rxbuf = s.rxbuf := rfl
@[simp] theorem expireWatchdog_txbuf (s : State) : (expireWatchdog s).txbuf = s.txbuf := rfl
@[simp] theorem expireWatchdog_table (s : State) : (expireWatchdog s).table = s.table := rfl
@[simp] theorem expireWatchdog_inited (s : State) : (expireWatchdog s).inited = s.inited := rfl
@[simp] theorem expireWatchdog_cfg (s : State) : (expireWatchdog s).cfg = s.cfg := rfl
@[simp] theorem expireWatchdog_tx (s : State) : (expireWatchdog s).tx = s.tx := rfl
@[simp] theorem expireWatchdog_ev (s : State) : (expireWatchdog s).ev = s.ev ++ [.failsafe] := rfl
@[simp] theorem expireWatchdog_res (s : State) : (expireWatchdog s).res = s.res := rfl
@[simp] theorem expireWatchdog_src (s : State) : (expireWatchdog s).src = s.src := rfl
@[simp] theorem expireWatchdog_inbox (s : State) : (expireWatchdog s).inbox = s.inbox := rfl

/-! `setUp` -/

@[simp] theorem setUp_ch (poly : Byte) (v : Bool) (s : State) : (setUp poly v s).ch = s.ch := rfl
@[simp] theorem setUp_ls (poly : Byte) (v : Bool) (s : State) : (setUp poly v s).ls = s.ls := rfl
@[simp] theorem setUp_fs (poly : Byte) (v : Bool) (s : State) : (setUp poly v s).fs = true := rfl
@[simp] theorem setUp_wdtArmed (poly : Byte) (v : Bool) (s : State) : (setUp poly v s).wdtArmed = false := rfl
@[simp] theorem setUp_wdtCnt (poly : Byte) (v : Bool) (s : State) : (setUp poly v s).wdtCnt = s.wdtCnt := rfl
@[simp] theorem setUp_rxs (poly : Byte) (v : Bool) (s : State) : (setUp poly v s).rxs = .seekSync := rfl
@[simp] theorem setUp_rxn (poly : Byte) (v : Bool) (s : State) : (setUp poly v s).rxn = 0 := rfl
@[simp] theorem setUp_rxlen (poly : Byte) (v : Bool) (s : State) : (setUp poly v s).rxlen = s.rxlen := rfl
@[simp] theorem setUp_rxbuf (poly : Byte) (v : Bool) (s : State) : (setUp poly v s).rxbuf = s.rxbuf := rfl
@[simp] theorem setUp_txbuf (poly : Byte) (v : Bool) (s : State) : (setUp poly v s).txbuf = s.txbuf := rfl
@[simp] theorem setUp_table (poly : Byte) (v : Bool) (s : State) : (setUp poly v s).table = crcTable poly := rfl
@[simp] theorem setUp_inited (poly : Byte) (v : Bool) (s : State) : (setUp poly v s).inited = true := rfl
@[simp] theorem setUp_cfg (poly : Byte) (v : Bool) (s : State) : (setUp poly v s).cfg = ⟨poly, v⟩ := rfl
@[simp] theorem setUp_tx (poly : Byte) (v : Bool) (s : State) : (setUp poly v s).tx = s.tx := rfl
@[simp] theorem setUp_ev (poly : Byte) (v : Bool) (s : State) : (setUp poly v s).ev = s.ev := rfl
@[simp] theorem setUp_res (poly : Byte) (v : Bool) (s : State) : (setUp poly v s).res = s.res := rfl
@[simp] theorem setUp_src (poly : Byte) (v : Bool) (s : State) : (setUp poly v s).src = s.src := rfl
@[simp] theorem setUp_inbox (poly : Byte) (v : Bool) (s : State) : (setUp poly v s).inbox = s.inbox := rfl

/-! `hardwareReset` -/

@[simp] theorem hardwareReset_ch (s : State) : (hardwareReset s).ch = State.reset.ch := rfl
@[simp] theorem hardwareReset_ls (s : State) : (hardwareReset s).ls = State.reset.ls := rfl
@[simp] theorem hardwareReset_fs (s : State) : (hardwareReset s).fs = State.reset.fs := rfl
@[simp] theorem hardwareReset_wdtArmed (s : State) : (hardwareReset s).wdtArmed = State.reset.wdtArmed := rfl
@[simp] theorem hardwareReset_wdtCnt (s : State) : (hardwareReset s).wdtCnt = State.reset.wdtCnt := rfl
@[simp] theorem hardwareReset_rxs (s : State) : (hardwareReset s).rxs = State.reset.rxs := rfl
@[simp] theorem hardwareReset_rxn (s : State) : (hardwareReset s).rxn = State.reset.rxn := rfl
@[simp] theorem hardwareReset_rxlen (s : State) : (hardwareReset s).rxlen = State.reset.rxlen := rfl
@[simp] theorem hardwareReset_rxbuf (s : State) : (hardwareReset s).rxbuf = State.reset.rxbuf := rfl
@[simp] theorem hardwareReset_txbuf (s : State) : (hardwareReset s).txbuf = State.reset.txbuf := rfl
@[simp] theorem hardwareReset_table (s : State) : (hardwareReset s).table = State.reset.table := rfl
@[simp] theorem hardwareReset_inited (s : State) : (hardwareReset s).inited = State.reset.inited := rfl
@[simp] theorem hardwareReset_cfg (s : State) : (hardwareReset s).cfg = State.reset.cfg := rfl
@[simp] theorem hardwareReset_tx (s : State) : (hardwareReset s).tx = s.tx := rfl
@[simp] theorem hardwareReset_ev (s : State) : (hardwareReset s).ev = s.ev := rfl
@[simp] theorem hardwareReset_res (s : State) : (hardwareReset s).res = s.res := rfl
@[simp] theorem hardwareReset_src (s : State) : (hardwareReset s).src = s.src := rfl
@[simp] theorem hardwareReset_inbox (s : State) : (hardwareReset s).inbox = s.inbox := rfl

end Sys2Proof.Machine
end

