-- ==== Sys2Proof/Laws/Receive.lean ====
section
/-! SUPPORT. What the shared operations of the receive side can do, said once: which parts of the state they leave alone,
and how the sequencer runs over a row of bytes. -/

namespace Sys2Proof.Machine

/-- The parts of the state that no receive operation touches. -/
structure OutsideReceive (s t : State) : Prop where
  txbuf : t.txbuf = s.txbuf
  table : t.table = s.table
  inited : t.inited = s.inited
  cfg : t.cfg = s.cfg
  tx : t.tx = s.tx
  res : t.res = s.res
  src : t.src = s.src
  inbox : t.inbox = s.inbox

theorem OutsideReceive.refl (s : State) : OutsideReceive s s := ⟨rfl, rfl, rfl, rfl, rfl, rfl, rfl, rfl⟩

theorem OutsideReceive.trans {s t u : State} (h : OutsideReceive s t) (k : OutsideReceive t u) : OutsideReceive s u :=
  ⟨k.txbuf.trans h.txbuf, k.table.trans h.table, k.inited.trans h.inited, k.cfg.trans h.cfg, k.tx.trans h.tx,
    k.res.trans h.res, k.src.trans h.src, k.inbox.trans h.inbox⟩

/-- The receive sequencer's registers and buffer. -/
structure SameSequencer (s t : State) : Prop where
  rxs : t.rxs = s.rxs
  rxn : t.rxn = s.rxn
  rxlen : t.rxlen = s.rxlen
  rxbuf : t.rxbuf = s.rxbuf

/-- What a dispatched or dropped frame does, whatever its type and payload: one of a channels acceptance, a
link-statistics acceptance, a generic acceptance, or one event and nothing else. -/
inductive DispatchDid (P : Params) (dest : Byte) (s t : State) : Prop where
  | channels (v : Vector (BitVec 11) 16) (h : t = acceptChannels P dest v s)
  | link (ls : Vector Byte 10) (h : t = acceptLink dest ls s)
  | generic (type : Byte) (payload : List Byte) (h : t = acceptGeneric dest type payload s)
  | event (e : Event) (he : lastChannels s.ch [e] = s.ch ∧ lastLink s.ls [e] = s.ls ∧ feeds [e] = false)
      (h : t = { s with ev := s.ev ++ [e] })

/-- The inversion of `DISPATCH`. -/
theorem dispatch_did (P : Params) (dest type : Byte) (payload : List Byte) (s : State) :
    DispatchDid P dest s (dispatch P dest type payload s) := by
  have shape : ∀ n, DispatchDid P dest s (raise (.errPayloadShape type n) s) :=
    fun n => .event _ ⟨rfl, rfl, rfl⟩ rfl
  unfold dispatch
  split
  · cases channelsUnpack payload with
    | none => exact shape _
    | some v => exact .channels v rfl
  split
  · cases linkUnpack payload with
    | none => exact shape _
    | some v => exact .link v rfl
  split
  · cases batteryUnpack payload with
    | none => exact shape _
    | some x => exact .event (.decBattery dest x) ⟨rfl, rfl, rfl⟩ rfl
  split
  · cases gpsUnpack payload with
    | none => exact shape _
    | some x => exact .event (.decGps dest x) ⟨rfl, rfl, rfl⟩ rfl
  split
  · cases rpmUnpack payload with
    | none => exact shape _
    | some x => exact .event (.decRpm dest x) ⟨rfl, rfl, rfl⟩ rfl
  split
  · cases tempUnpack payload with
    | none => exact shape _
    | some x => exact .event (.decTemp dest x) ⟨rfl, rfl, rfl⟩ rfl
  · exact .generic type payload rfl

/-- The inversion of the judgement of a complete frame: a checksum mismatch is one event and nothing else. -/
theorem judge_did (P : Params) (dest type : Byte) (payload : List Byte) (c r : Byte) (s : State) :
    DispatchDid P dest s (judge P dest type payload c r s) := by
  unfold judge
  split
  · exact .event (.errCrcMismatch c r) ⟨rfl, rfl, rfl⟩ rfl
  · exact dispatch_did P dest type payload s

theorem DispatchDid.outside {P : Params} {dest : Byte} {s t : State} (h : DispatchDid P dest s t) :
    OutsideReceive s t := by
  cases h with
  | channels v h => subst h; exact ⟨rfl, rfl, rfl, rfl, rfl, rfl, rfl, rfl⟩
  | link ls h => subst h; exact ⟨rfl, rfl, rfl, rfl, rfl, rfl, rfl, rfl⟩
  | generic ty p h => subst h; exact ⟨rfl, rfl, rfl, rfl, rfl, rfl, rfl, rfl⟩
  | event e _ h => subst h; exact ⟨rfl, rfl, rfl, rfl, rfl, rfl, rfl, rfl⟩

theorem DispatchDid.sequencer {P : Params} {dest : Byte} {s t : State} (h : DispatchDid P dest s t) :
    SameSequencer s t := by
  cases h with
  | channels v h => subst h; exact ⟨rfl, rfl, rfl, rfl⟩
  | link ls h => subst h; exact ⟨rfl, rfl, rfl, rfl⟩
  | generic ty p h => subst h; exact ⟨rfl, rfl, rfl, rfl⟩
  | event e _ h => subst h; exact ⟨rfl, rfl, rfl, rfl⟩

/-- The inversion of `EMIT`: it read the frame out of the buffer, judged it and went back to `SEEK_SYNC`. -/
theorem emitFrame_next {P : Params} {s t : State} (h : emitFrame P s = .next t) :
    ∃ dest type payload received computed,
      memRead .rxbuf s.rxbuf 0 = .ok dest ∧ memRead .rxbuf s.rxbuf 2 = .ok type ∧
      memReadFrom .rxbuf s.rxbuf 3 (s.rxlen.toNat - 2) = .ok payload ∧
      memRead .rxbuf s.rxbuf (s.rxlen.toNat + 1) = .ok received ∧
      crcSum s.table (type :: payload) = .ok computed ∧
      t = seekAgain (judge P dest type payload computed received s) := by
  obtain ⟨dest, h1, h⟩ := withValue_next h
  obtain ⟨type, h2, h⟩ := withValue_next h
  obtain ⟨payload, h3, h⟩ := withValue_next h
  obtain ⟨received, h4, h⟩ := withValue_next h
  obtain ⟨computed, h5, h⟩ := withValue_next h
  cases h
  exact ⟨dest, type, payload, received, computed, h1, h2, h3, h4, h5, rfl⟩

/-- The inversion of one step of the sequencer, one case for each row of R102 to R105. -/
theorem rxStep_next {P : Params} {b : Byte} {s t : State} (h : rxStep P b s = .next t) :
    (s.rxs = .seekSync ∧ isDest P b = true ∧ t = holdSync b s) ∨
    (s.rxs = .seekSync ∧ isDest P b = false ∧ t = raise (.errDesyncSkip b) s) ∨
    (s.rxs = .readLength ∧ 2 ≤ b.toNat ∧ b.toNat ≤ 62 ∧ t = holdLength b s) ∨
    (s.rxs = .readLength ∧ ¬(2 ≤ b.toNat ∧ b.toNat ≤ 62) ∧ isDest P b = true ∧
      t = holdSync b (raise (.errBadLength b) s)) ∨
    (s.rxs = .readLength ∧ ¬(2 ≤ b.toNat ∧ b.toNat ≤ 62) ∧ isDest P b = false ∧
      t = seekAgain (raise (.errBadLength b) s)) ∨
    (s.rxs = .awaitBody ∧ s.rxn < 64 ∧ s.rxn + 1 ≠ s.rxlen.toNat + 2 ∧
      t = setRxn (s.rxn + 1) (setRxbuf (s.rxbuf.write s.rxn b) s)) ∨
    (s.rxs = .awaitBody ∧ s.rxn < 64 ∧ s.rxn + 1 = s.rxlen.toNat + 2 ∧
      emitFrame P (setRxbuf (s.rxbuf.write s.rxn b) s) = .next t) := by
  unfold rxStep at h
  cases hs : s.rxs with
  | seekSync =>
    rw [hs] at h
    simp only [Host.Outcome.next.injEq, rxSeek] at h
    cases hd : isDest P b <;> simp_all
  | readLength =>
    rw [hs] at h
    simp only [Host.Outcome.next.injEq, rxLength, Config.minLen, Config.maxLen] at h
    by_cases hb : 2 ≤ b.toNat ∧ b.toNat ≤ 62
    · simp_all
    · rw [if_neg hb] at h
      cases hd : isDest P b <;> simp_all
  | awaitBody =>
    rw [hs] at h
    obtain ⟨buf, hw, h⟩ := withValue_next h
    obtain ⟨hn, rfl⟩ := memWrite_ok.mp hw
    have hn : s.rxn < 64 := hn
    split at h
    · simp_all
    · cases h
      simp_all

/-- One step of the sequencer touches nothing outside the receive side. -/
theorem rxStep_outside {P : Params} {b : Byte} {s t : State} (h : rxStep P b s = .next t) : OutsideReceive s t := by
  rcases rxStep_next h with ⟨-, -, rfl⟩ | ⟨-, -, rfl⟩ | ⟨-, -, -, rfl⟩ | ⟨-, -, -, rfl⟩ | ⟨-, -, -, rfl⟩ |
    ⟨-, -, -, rfl⟩ | ⟨-, -, -, h⟩
  case inr.inr.inr.inr.inr.inr =>
    obtain ⟨dest, type, payload, received, computed, -, -, -, -, -, rfl⟩ := emitFrame_next h
    have k := (judge_did P dest type payload computed received (setRxbuf (s.rxbuf.write s.rxn b) s)).outside
    exact ⟨k.txbuf, k.table, k.inited, k.cfg, k.tx, k.res, k.src, k.inbox⟩
  all_goals exact ⟨rfl, rfl, rfl, rfl, rfl, rfl, rfl, rfl⟩

/-- The inversion of one step of the receive agent: it waited, or took the one byte at the head of the source. -/
theorem takeByte_next {P : Params} {s t : State} (h : takeByte P s = .next t) :
    ((s.inited = false ∨ s.src = []) ∧ t = s) ∨
    (s.inited = true ∧ ∃ b rest, s.src = b :: rest ∧ rxStep P b (setSource rest s) = .next t) := by
  unfold takeByte at h
  cases hi : s.inited with
  | false =>
    simp only [hi, Bool.false_eq_true, if_false, Host.Outcome.next.injEq] at h
    exact .inl ⟨.inl rfl, h.symm⟩
  | true =>
    simp only [hi, if_true] at h
    cases hs : s.src with
    | nil =>
      simp only [hs, Host.Outcome.next.injEq] at h
      exact .inl ⟨.inr rfl, h.symm⟩
    | cons b rest =>
      simp only [hs] at h
      exact .inr ⟨rfl, b, rest, rfl, h⟩

/-- The step on a waiting byte. -/
theorem takeByte_cons {P : Params} {s : State} {b : Byte} {rest : List Byte} (h : s.inited = true)
    (hs : s.src = b :: rest) : takeByte P s = rxStep P b (setSource rest s) := by
  simp [takeByte, h, hs]

/-- The receive agent waits where no byte waits for it. -/
theorem takeByte_waits {P : Params} {s : State} (h : s.inited = false ∨ s.src = []) : takeByte P s = .next s := by
  rcases h with h | h <;> cases hi : s.inited <;> simp_all [takeByte]

/-- One step of the receive agent touches nothing outside the receive side but the source, which it shortens by at most
one byte. -/
theorem takeByte_outside {P : Params} {s t : State} (h : takeByte P s = .next t) :
    OutsideReceive (setSource t.src s) t ∧ (t.src = s.src ∨ t.src = s.src.tail) := by
  rcases takeByte_next h with ⟨-, rfl⟩ | ⟨-, b, rest, hs, h⟩
  · exact ⟨OutsideReceive.refl t, .inl rfl⟩
  · have k := rxStep_outside h
    have e : t.src = rest := k.src
    exact ⟨⟨k.txbuf, k.table, k.inited, k.cfg, k.tx, k.res, rfl, k.inbox⟩, .inr (by rw [e, hs]; rfl)⟩

/-- A property of states that every step of the receive agent keeps is kept over a row of them. -/
theorem receive_keeps {P : Params} {I : State → Prop} (hstep : ∀ s t, I s → takeByte P s = .next t → I t)
    {n : Nat} {s t : State} (hs : I s) (h : receive P n s = .next t) : I t := by
  induction n generalizing s with
  | zero => cases h; exact hs
  | succ n ih =>
    simp only [receive] at h
    split at h
    · rename_i u hu
      exact ih (hstep s u hs hu) h
    · cases h
    · cases h

/-- A row of steps is its parts one after the other. -/
theorem receive_add (P : Params) (m n : Nat) (s : State) :
    receive P (m + n) s =
      match receive P m s with
      | .next t => receive P n t
      | .fault f => .fault f
      | .refused r => .refused r := by
  induction m generalizing s with
  | zero => rw [Nat.zero_add]; rfl
  | succ m ih =>
    rw [Nat.succ_add]
    simp only [receive]
    cases takeByte P s with
    | next t => exact ih t
    | fault f => rfl
    | refused r => rfl

/-- Presented bytes wait behind those already there, and the first of all is taken in the same step (R100, R101). -/
theorem offer_inited {P : Params} {s : State} {bs rest : List Byte} {b : Byte} (h : s.inited = true)
    (hs : s.src ++ bs = b :: rest) : offer P bs s = rxStep P b (setSource rest s) :=
  takeByte_cons (s := keepAtSource bs s) h hs

/-- While `INITED` = 0 presented bytes wait with the source (R101). -/
theorem offer_waiting {P : Params} {s : State} (h : s.inited = false) (bs : List Byte) :
    offer P bs s = .next (keepAtSource bs s) := takeByte_waits (.inl h)

/-! The watchdog. -/

/-- The inversion of `TICK` (R218). -/
theorem tickWatchdog_cases (s : State) :
    (s.wdtArmed = false ∧ tickWatchdog s = s) ∨
    (s.wdtArmed = true ∧ s.wdtCnt = 1 ∧ tickWatchdog s = expireWatchdog s) ∨
    (s.wdtArmed = true ∧ s.wdtCnt ≠ 1 ∧ tickWatchdog s = { s with wdtCnt := s.wdtCnt - 1 }) := by
  unfold tickWatchdog
  cases s.wdtArmed
  · simp
  · by_cases h : s.wdtCnt = 1 <;> simp [h]

end Sys2Proof.Machine
end

