-- ==== Sys2Proof/Laws/Send.lean ====
section
/-! SUPPORT. What the send procedure can do, said once. -/

namespace Sys2Proof.Machine

/-- The inversion of `SEND` (R194): an error with nothing written, or the frame in `TXBUF` and on `TX`. -/
theorem sendFrame_next {P : Params} {op : BitVec 6} {d : Dest} {ty : Byte} {p : List Byte} {s t : State}
    (h : sendFrame P op d ty p s = .next t) :
    (s.inited = false ∧ t = give (.error .notInitialised) (raise (.errNotInitialised op) s)) ∨
    (s.inited = true ∧ 60 < p.length ∧ t = give (.error .encodingLimit) (raise (.errEncodingLimit p.length) s)) ∨
    (s.inited = true ∧ p.length ≤ 60 ∧ ∃ f buf out, assembleFrame s.table (dval P d) ty p = .ok f ∧
      memWriteFrom .txbuf s.txbuf 0 f = .ok buf ∧ memReadFrom .txbuf buf 0 f.length = .ok out ∧
      t = give .ok (txWrite out (setTxbuf buf s))) := by
  unfold sendFrame at h
  cases hi : s.inited with
  | false =>
    simp only [hi, if_true, failWith, Host.Outcome.next.injEq] at h
    exact .inl ⟨rfl, h.symm⟩
  | true =>
    simp only [hi, Bool.true_eq_false, if_false, Config.maxPayload, Config.maxLen] at h
    by_cases hp : 60 < p.length
    · simp only [hp, if_true, failWith, Host.Outcome.next.injEq] at h
      exact .inr (.inl ⟨rfl, hp, h.symm⟩)
    · simp only [hp, if_false] at h
      obtain ⟨f, hf, h⟩ := withValue_next h
      obtain ⟨buf, hb, h⟩ := withValue_next h
      obtain ⟨out, ho, h⟩ := withValue_next h
      cases h
      exact .inr (.inr ⟨rfl, by omega, f, buf, out, hf, hb, ho, rfl⟩)

/-- A frame that fits `TXBUF` goes out as it was assembled. -/
theorem sendFrame_of_frame {P : Params} {op : BitVec 6} {d : Dest} {ty : Byte} {p f : List Byte} {s : State}
    (hi : s.inited = true) (hp : p.length ≤ 60) (hf : assembleFrame s.table (dval P d) ty p = .ok f)
    (hl : f.length ≤ 64) :
    sendFrame P op d ty p s = .next (give .ok (txWrite f (setTxbuf (s.txbuf.writeFrom 0 f) s))) := by
  have hs : 0 + f.length ≤ arraySize .txbuf := by simpa [arraySize, Config.maxFrame, Config.maxLen] using hl
  have hn : ¬ Config.maxPayload < p.length := by
    simp only [Config.maxPayload, Config.maxLen]
    omega
  simp [sendFrame, hi, hn, hf, withValue, memWriteFrom_inside _ _ _ _ hs, memReadFrom_writeFrom _ _ _ _ hs]

end Sys2Proof.Machine
end

