-- ==== Sys2Proof/Tests/Slice0.lean ====
section
/-! SUPPORT. The model's own tests. Expected values are the spec's: the vectors V<n> and programs P<n> of
95_test_vectors.md, or the worked examples of the rule named. The witnesses at the end show, for each statement with
hypotheses, a state and operands that meet them. -/

namespace Sys2Proof.Tests

set_option Elab.async false

open Sys2Proof Sys2Proof.Machine

/-- The next state, if there is one. -/
def nextOf : Out → Option State
  | .next t => some t
  | .fault _ => none
  | .refused _ => none

/-- The fault, if there is one. -/
def faultOf : Out → Option Fault
  | .next _ => none
  | .fault f => some f
  | .refused _ => none

/-- The refusal, if there is one. -/
def refusalOf : Out → Option Refusal
  | .next _ => none
  | .fault _ => none
  | .refused r => some r

/-- What a decoding answers, as a value that can be compared. -/
def decoded (x : Except DecodeError Instr) : Option Instr :=
  match x with
  | .ok i => some i
  | .error _ => none

/-- Why a decoding rejects. -/
def rejection (x : Except DecodeError Instr) : Option DecodeError :=
  match x with
  | .ok _ => none
  | .error e => some e

/-- The engine after `reset; init poly=0xD5 verify=1`. -/
def ready : State := setUp 0xD5 true State.reset

/-- An instruction on `ready`, and then the receive agent's steps on the bytes it left waiting. -/
def settled (i : Instr) : Option State := nextOf (andThen (exec i ready) (drain Config.params))

/-- The results after an instruction on `ready`. -/
def answer (i : Instr) : Option (List Result) := (settled i).map (·.res)

/-- The events after an instruction on `ready`. -/
def events (i : Instr) : Option (List Event) := (settled i).map (·.ev)

/-- The sequencer after an instruction on `ready`. -/
def sequencer (i : Instr) : Option (RxState × Nat) := (settled i).map fun t => (t.rxs, t.rxn)

/-- The payload of V22: sixteen times 992. -/
def payload992 : List Byte :=
  [0xE0, 0x03, 0x1F, 0xF8, 0xC0, 0x07, 0x3E, 0xF0, 0x81, 0x0F, 0x7C] ++
  [0xE0, 0x03, 0x1F, 0xF8, 0xC0, 0x07, 0x3E, 0xF0, 0x81, 0x0F, 0x7C]

/-- The payload of V59. -/
def link59 : Vector Byte 10 := #v[0x28, 0x2A, 0x64, 0x0A, 0x00, 0x02, 0x03, 0x32, 0x63, 0xFB]

/-- The payload of V43. -/
def payload43 : List Byte :=
  [0x1E, 0xB3, 0x67, 0xD0, 0xFF, 0xEC, 0x7F, 0xD0, 0x00, 0x7B, 0x23, 0x28, 0x04, 0x0B, 0x0C]

/-- The value of V43. -/
def gps43 : Gps := ⟨515074000, BitVec.ofInt 32 (-1278000), 123, 9000, 1035, 12⟩

/-! ## WellFormed refuses -/

theorem test_wf_payload_60 : Instr.wf Config.params (.channels .fc (List.replicate 60 0) 0) = true := by decide
theorem test_wf_refuses_gps_61 : Instr.wf Config.params (.gps .fc (List.replicate 61 0) 0) = false := by decide
theorem test_wf_refuses_battery_61 : Instr.wf Config.params (.battery .fc (List.replicate 61 0) 0) = false := by decide
theorem test_wf_refuses_rpm_61 : Instr.wf Config.params (.rpm .fc (List.replicate 61 0) 0) = false := by decide
theorem test_wf_refuses_temp_61 : Instr.wf Config.params (.temp .fc (List.replicate 61 0) 0) = false := by decide
theorem test_wf_refuses_link_61 : Instr.wf Config.params (.link .fc (List.replicate 61 0) 0) = false := by decide
theorem test_wf_refuses_channels_61 : Instr.wf Config.params (.channels .fc (List.replicate 61 0) 0) = false := by decide
theorem test_wf_refuses_generic_61 : Instr.wf Config.params (.generic .fc 0x7F (List.replicate 61 0) 0) = false := by
  decide
theorem test_wf_refuses_generic_of_a_known_type : Instr.wf Config.params (.generic .fc 0x16 [] 0) = false := by decide
theorem test_wf_refuses_reserved_seven :
    Instr.wf Config.params (.reservedOp 7) = false ∧ Instr.wf Config.params (.reservedOp 8) = true := by decide
theorem test_wf_refuses_offset_256 :
    Instr.wf Config.params (.beGet16 [] 256) = false ∧ Instr.wf Config.params (.beGet24 [] 256) = false ∧
    Instr.wf Config.params (.beGet32 [] 256) = false ∧ Instr.wf Config.params (.beGets .w16 [] 256) = false := by decide
theorem test_params_refuse_equal_destinations :
    Params.ok { Config.params with destTx := 0xC8 } = false ∧ Params.ok { Config.params with typeGps := 0x16 } = false ∧
    Params.ok { Config.params with tickMs := 0 } = false ∧ Params.ok Config.params = true := by decide

/-! ## Decoding: words from the spec's encodings. The operand bytes of operations are log 5's. -/

/-- V43, V40, V50, V56, V59, V60, V19b: one frame of each row of R65. -/
theorem test_decode_frames :
    decode Config.params .serial ([0xC8, 0x11, 0x02] ++ payload43 ++ [0x87]) = .ok (.gps .fc payload43 0x87) ∧
    decode Config.params .serial [0xC8, 0x0A, 0x08, 0x00, 0xA8, 0x00, 0x19, 0x00, 0x05, 0xDC, 0x57, 0x20] =
      .ok (.battery .fc [0x00, 0xA8, 0x00, 0x19, 0x00, 0x05, 0xDC, 0x57] 0x20) ∧
    decode Config.params .serial [0xC8, 0x06, 0x0C, 0x00, 0xFF, 0xFC, 0x18, 0x60] =
      .ok (.rpm .fc [0x00, 0xFF, 0xFC, 0x18] 0x60) ∧
    decode Config.params .serial [0xC8, 0x05, 0x0D, 0x02, 0x00, 0xFA, 0x00] =
      .ok (.temp .fc [0x02, 0x00, 0xFA] 0x00) ∧
    decode Config.params .serial ([0xEA, 0x0C, 0x14] ++ link59.toList ++ [0xB0]) = .ok (.link .tx link59.toList 0xB0) ∧
    decode Config.params .serial ([0xC8, 0x18, 0x16] ++ payload992 ++ [0xAD]) = .ok (.channels .fc payload992 0xAD) ∧
    decode Config.params .serial [0xC8, 0x05, 0x7F, 0x01, 0x02, 0x03, 0x86] =
      .ok (.generic .fc 0x7F [0x01, 0x02, 0x03] 0x86) := by
  refine ⟨rfl, rfl, rfl, rfl, rfl, rfl, rfl⟩

/-- Serial bytes that are no whole frame are a chunk: a bad length, a foreign first byte, a frame cut short. -/
theorem test_decode_chunks :
    decode Config.params .serial [0xC8, 0x01, 0x16] = .ok (.rxChunk [0xC8, 0x01, 0x16]) ∧
    decode Config.params .serial [0x00, 0x02, 0x7F, 0x16] = .ok (.rxChunk [0x00, 0x02, 0x7F, 0x16]) ∧
    decode Config.params .serial [0xC8, 0x02, 0x7F] = .ok (.rxChunk [0xC8, 0x02, 0x7F]) := by
  refine ⟨rfl, rfl, rfl⟩

/-- The codes of R75, and the reserved ones of R195. -/
theorem test_decode_host :
    decode Config.params .host [0x00, 0xD5, 0x01] = .ok (.init 0xD5 true) ∧
    decode Config.params .host [0x01] = .ok .receiveChannels ∧
    decode Config.params .host [0x02] = .ok .getLinkStatistics ∧
    decode Config.params .host [0x03] = .ok .isFailsafe ∧
    decode Config.params .host [0x04, 0x00, 0x00, 0xA8, 0x00, 0x19, 0x00, 0x05, 0xDC, 0x57] =
      .ok (.sendBattery .fc ⟨168, 25, 1500, 87⟩) ∧
    decode Config.params .host ([0x05, 0x01] ++ payload43) = .ok (.sendGps .tx gps43) ∧
    decode Config.params .host [0x06, 0x00, 0x07, 0xFF, 0xFF, 0xFC, 0x18] =
      .ok (.sendRpm .fc 7 [BitVec.ofInt 32 (-1000)]) ∧
    decode Config.params .host [0x07, 0x01, 0x02, 0x00, 0xFA, 0xFF, 0xC9] =
      .ok (.sendTemp .tx 2 [250, BitVec.ofInt 16 (-55)]) ∧
    decode Config.params .host [0x08] = .ok (.reservedOp 0x08) ∧
    decode Config.params .host [0x3F, 0x55] = .ok (.reservedOp 0x3F) := by
  refine ⟨rfl, rfl, rfl, rfl, rfl, ?_, rfl, rfl, rfl, rfl⟩
  exact (by decide +kernel : decoded (decode Config.params .host ([0x05, 0x01] ++ payload43)) = some (.sendGps .tx gps43)) |>
    fun h => by
      cases e : decode Config.params .host ([0x05, 0x01] ++ payload43) with
      | ok i => rw [e] at h; simpa [decoded] using h
      | error x => rw [e] at h; simp [decoded] at h

/-- The identifiers of R76 below 0x20. -/
theorem test_decode_units_low :
    decoded (decode Config.params .unit [0x10, 0xD5]) = some (.crcBuild 0xD5) ∧
    decoded (decode Config.params .unit ([0x11] ++ List.replicate 256 0 ++ [0x01])) =
      some (.crcSum (Vector.replicate 256 0) [0x01]) ∧
    decoded (decode Config.params .unit [0x12, 0xC8]) = some (.rxByte 0xC8) ∧
    decoded (decode Config.params .unit [0x13, 0xC8, 0x02]) = some (.rxChunk [0xC8, 0x02]) ∧
    decoded (decode Config.params .unit [0x14, 0xC8, 0x7F]) = some (.frameEncode 0xC8 0x7F []) ∧
    decoded (decode Config.params .unit ([0x15] ++ List.replicate 22 0)) = some (.chUnpack (Vector.replicate 22 0)) ∧
    decoded (decode Config.params .unit ([0x16] ++ List.replicate 32 0xFF)) =
      some (.chPack (Vector.replicate 16 0xFFFF)) ∧
    decoded (decode Config.params .unit [0x17, 0x01, 0xAA, 0x12, 0x34]) = some (.beGet16 [0xAA, 0x12, 0x34] 1) ∧
    decoded (decode Config.params .unit [0x18, 0x00, 0x9A, 0xBC, 0xDE]) = some (.beGet24 [0x9A, 0xBC, 0xDE] 0) ∧
    decoded (decode Config.params .unit [0x19, 0xFF]) = some (.beGet32 [] 255) ∧
    decoded (decode Config.params .unit [0x1A, 0x12, 0x34]) = some (.bePut16 0x1234) ∧
    decoded (decode Config.params .unit [0x1B, 0x9A, 0xBC, 0xDE]) = some (.bePut24 0x9ABCDE) ∧
    decoded (decode Config.params .unit [0x1C, 0x1E, 0xB3, 0x67, 0xD0]) = some (.bePut32 515074000) ∧
    decoded (decode Config.params .unit [0x1D, 0x01, 0x00, 0xFF, 0xFC, 0x18]) =
      some (.beGets .w24 [0xFF, 0xFC, 0x18] 0) ∧
    decoded (decode Config.params .unit [0x1E, 0x02, 0xFF, 0xEC, 0x7F, 0xD0]) =
      some (.bePuts .w32 (BitVec.ofInt 32 (-1278000))) := by
  decide +kernel

/-- The identifiers of R76 from 0x20 on. -/
theorem test_decode_units_high :
    decoded (decode Config.params .unit [0x20, 0x01]) = some (.batteryUnpack [0x01]) ∧
    decoded (decode Config.params .unit [0x21, 0x00, 0xA8, 0x00, 0x19, 0x00, 0x05, 0xDC, 0x57]) =
      some (.batteryPack ⟨168, 25, 1500, 87⟩) ∧
    decoded (decode Config.params .unit ([0x22] ++ payload43)) = some (.gpsUnpack payload43) ∧
    decoded (decode Config.params .unit ([0x23] ++ payload43)) = some (.gpsPack gps43) ∧
    decoded (decode Config.params .unit [0x24, 0x05]) = some (.rpmUnpack [0x05]) ∧
    decoded (decode Config.params .unit [0x25, 0x07, 0xFF, 0xFF, 0xFC, 0x18]) =
      some (.rpmPack 7 [BitVec.ofInt 32 (-1000)]) ∧
    decoded (decode Config.params .unit [0x26]) = some (.tempUnpack []) ∧
    decoded (decode Config.params .unit [0x27, 0x02, 0xFF, 0xC9]) = some (.tempPack 2 [BitVec.ofInt 16 (-55)]) ∧
    decoded (decode Config.params .unit ([0x28] ++ link59.toList)) = some (.linkUnpack link59.toList) ∧
    decoded (decode Config.params .unit ([0x29] ++ link59.toList)) = some (.linkPack link59) ∧
    decoded (decode Config.params .unit [0x2A, 0xC8, 0x7F, 0x01]) = some (.dispatch 0xC8 0x7F [0x01]) ∧
    decoded (decode Config.params .unit ([0x30] ++ (List.replicate 16 [0x03, 0xE0]).flatten)) =
      some (.stUpdateCh (Vector.replicate 16 992)) ∧
    decoded (decode Config.params .unit [0x31]) = some .stReadCh ∧
    decoded (decode Config.params .unit ([0x32] ++ link59.toList)) = some (.stUpdateLs link59) ∧
    decoded (decode Config.params .unit [0x33]) = some .stReadLs ∧
    decoded (decode Config.params .unit [0x38]) = some .fsFeed ∧
    decoded (decode Config.params .unit [0x39]) = some .fsExpire ∧
    decoded (decode Config.params .unit [0x3A]) = some .tick ∧
    decoded (decode Config.params .unit [0x3B]) = some .fsQuery := by
  decide +kernel

/-- What the decoder rejects, each by its name. -/
theorem test_decode_rejects :
    rejection (decode Config.params .host []) = some .empty ∧
    rejection (decode Config.params .host [0x40]) = some (.opTooWide 0x40) ∧
    rejection (decode Config.params .host [0x01, 0x00]) = some (.operandLength 0x01) ∧
    rejection (decode Config.params .host [0x00, 0xD5, 0x02]) = some (.operandValue 0x00) ∧
    rejection (decode Config.params .unit [0x1F]) = some (.notAUnit 0x1F) ∧
    rejection (decode Config.params .unit ([0x30] ++ List.replicate 32 0xFF)) = some (.operandValue 0x30) := by
  decide +kernel

/-- Table words: the frame rows by their TYPE byte, the operation rows by their 6-bit code. -/
theorem test_table_words :
    decodeTableWord 8 0x16 = some (.channels .fc (List.replicate 22 0) 0xEF) ∧
    decodeTableWord 8 0x7F = some (.generic .fc 0x7F [] 0x16) ∧
    decodeTableWord 6 0x02 = some .getLinkStatistics ∧
    decodeTableWord 6 0x09 = some (.reservedOp 9) ∧
    decodeTableWord 8 0x3B = some .fsQuery ∧
    (nextOf (step (State.reset.withFetchWord 8 0x3B))).map (·.res) = some [.bit true] := by
  decide +kernel

/-! ## Frames -/

theorem test_gps_V43 : events (.gps .fc payload43 0x87) = some [.decGps 0xC8 gps43] := by decide +kernel
theorem test_battery_V40 :
    events (.battery .fc [0x00, 0xA8, 0x00, 0x19, 0x00, 0x05, 0xDC, 0x57] 0x20) =
      some [.decBattery 0xC8 ⟨168, 25, 1500, 87⟩] := by decide +kernel
theorem test_rpm_V50 :
    events (.rpm .fc [0x00, 0xFF, 0xFC, 0x18] 0x60) = some [.decRpm 0xC8 ⟨0, [BitVec.ofInt 32 (-1000)]⟩] := by
  decide +kernel
/-- V19f. -/
theorem test_rpm_shape :
    events (.rpm .fc [0x05, 0x00, 0x00, 0x01, 0x09] 0xC7) = some [.errPayloadShape 0x0C 5] := by decide +kernel
theorem test_temp_V56 :
    events (.temp .tx [0x02, 0x00, 0xFA, 0xFF, 0xC9, 0x00, 0x00, 0x80, 0x00, 0x7F, 0xFF] 0x4B) =
      some [.decTemp 0xEA ⟨2, [250, BitVec.ofInt 16 (-55), 0, BitVec.ofInt 16 (-32768), 32767]⟩] := by decide +kernel
/-- V74: the watchdog is not fed. -/
theorem test_link_V59 :
    (settled (.link .tx link59.toList 0xB0)).map (fun t => (t.ls, t.ev, t.fs, t.ch)) =
      some (link59, [.decLink 0xEA link59], true, Vector.replicate 16 0) := by decide +kernel
/-- P1's end state. -/
theorem test_channels_V60 :
    (settled (.channels .fc payload992 0xAD)).map (fun t => (t.ch, t.fs, t.wdtArmed, t.wdtCnt, t.rxs)) =
      some (Vector.replicate 16 992, false, true, 500, .seekSync) := by decide +kernel
/-- P2: the checksum AD with bit 0 flipped. -/
theorem test_channels_wrong_checksum :
    (settled (.channels .fc payload992 0xAC)).map (fun t => (t.ch, t.fs, t.ev)) =
      some (Vector.replicate 16 0, true, [.errCrcMismatch 0xAD 0xAC]) := by decide +kernel
theorem test_generic_V19b :
    events (.generic .fc 0x7F [0x01, 0x02, 0x03] 0x86) =
      some [.errUnsupportedType 0x7F, .generic 0xC8 0x7F [0x01, 0x02, 0x03]] := by decide +kernel

/-! ## Host operations -/

/-- R186's worked example, and V76: a second `INIT` is ignored. -/
theorem test_init :
    (nextOf (exec (.init 0xD5 true) State.reset)).map (fun t => (t.inited, t.fs, t.table.read 0x80, t.res)) =
      some (true, true, some 0xEF, [.ok]) ∧
    (nextOf (exec (.init 0x07 false) ready)).map (fun t => (t.cfg, t.table.read 1)) = some (⟨0xD5, true⟩, some 0xD5) := by
  decide +kernel
/-- V70. -/
theorem test_reads_before_init :
    (nextOf (execAll [.receiveChannels, .getLinkStatistics, .isFailsafe] State.reset)).map (·.res) =
      some [.channelData (Vector.replicate 16 0), .linkStatistics (Vector.replicate 10 0), .bit true] := by decide +kernel
/-- V72. -/
theorem test_receiveChannels :
    (nextOf (exec .receiveChannels { State.reset with ch := Vector.replicate 16 992 })).map (·.res) =
      some [.channelData (Vector.replicate 16 992)] := by decide +kernel
theorem test_sendBattery_V40 :
    (nextOf (exec (.sendBattery .fc ⟨168, 25, 1500, 87⟩) ready)).map (fun t => (t.tx, t.res)) =
      some ([0xC8, 0x0A, 0x08, 0x00, 0xA8, 0x00, 0x19, 0x00, 0x05, 0xDC, 0x57, 0x20], [.ok]) := by decide +kernel
theorem test_sendGps_V43 :
    (nextOf (exec (.sendGps .fc gps43) ready)).map (·.tx) = some ([0xC8, 0x11, 0x02] ++ payload43 ++ [0x87]) := by
  decide +kernel
theorem test_sendRpm_V50 :
    (nextOf (exec (.sendRpm .fc 0 [BitVec.ofInt 32 (-1000)]) ready)).map (·.tx) =
      some [0xC8, 0x06, 0x0C, 0x00, 0xFF, 0xFC, 0x18, 0x60] := by decide +kernel
/-- V54, V55: the kept values are checked, the dropped one is not. -/
theorem test_sendRpm_range :
    (nextOf (exec (.sendRpm .fc 0 [8388608]) ready)).map (fun t => (t.tx, t.res)) = some ([], [.error .range]) ∧
    (nextOf (exec (.sendRpm .fc 7 (List.replicate 19 1 ++ [9999999])) ready)).map (fun t => (t.tx.length, t.res)) =
      some (62, [.ok]) := by decide +kernel
theorem test_sendTemp_V56 :
    (nextOf (exec (.sendTemp .tx 2 [250, BitVec.ofInt 16 (-55), 0, BitVec.ofInt 16 (-32768), 32767]) ready)).map (·.tx) =
      some [0xEA, 0x0D, 0x0D, 0x02, 0x00, 0xFA, 0xFF, 0xC9, 0x00, 0x00, 0x80, 0x00, 0x7F, 0xFF, 0x4B] := by
  decide +kernel
/-- V57 but for its checksum byte (log 17), and V62. -/
theorem test_sendTemp_limits :
    (nextOf (exec (.sendTemp .fc 3 ((List.range 25).map fun k => BitVec.ofNat 16 (10 * k))) ready)).map
      (fun t => (t.tx.length, t.tx.take 6, t.tx.getD 43 0)) = some (45, [0xC8, 0x2B, 0x0D, 0x03, 0x00, 0x00], 0xBE) ∧
    (nextOf (exec (.sendTemp .fc 3 [1]) State.reset)).map (fun t => (t.tx, t.res)) =
      some ([], [.error .notInitialised]) := by decide +kernel
theorem test_reservedOp :
    (nextOf (exec (.reservedOp 0x0F) ready)).map (fun t => (t.ev, t.res)) =
      some ([.errBadOp 0x0F], [.error .badOp]) := by decide +kernel

/-! ## Checksum engine -/

/-- The rounds of 2.1 and its other polynomials. -/
theorem test_crcBuild :
    (crcBuild 0xD5).toList.getD 0x01 0 = 0xD5 ∧ (crcBuild 0xD5).toList.getD 0x80 0 = 0xEF ∧
    (crcBuild 0xD5).toList.getD 0xFF 0 = 0xF9 ∧
    (crcBuild 0x07).toList.take 8 = [0x00, 0x07, 0x0E, 0x09, 0x1C, 0x1B, 0x12, 0x15] := by decide +kernel
/-- V1, V9, V10. -/
theorem test_crcSum :
    answer (.crcSum (crcBuild 0xD5) []) = some [.u8 0x00] ∧
    answer (.crcSum (crcBuild 0xD5) [0x01, 0x02, 0x03, 0x04]) = some [.u8 0x75] ∧
    answer (.crcSum (crcBuild 0xD5) [0x31, 0x32, 0x33, 0x34, 0x35, 0x36, 0x37, 0x38, 0x39]) = some [.u8 0xBC] ∧
    answer (.crcSum (crcBuild 0x07) [0x31, 0x32, 0x33, 0x34, 0x35, 0x36, 0x37, 0x38, 0x39]) = some [.u8 0xF4] := by
  decide +kernel

/-! ## Receive sequencer -/

/-- V13, V14. -/
theorem test_rxByte :
    events (.rxByte 0x00) = some [.errDesyncSkip 0x00] ∧ sequencer (.rxByte 0xC8) = some (.readLength, 1) := by
  decide +kernel
/-- V17, V18, V19: the bounds of the length, and the rejected byte examined again. -/
theorem test_rxChunk_lengths :
    events (.rxChunk [0xC8, 0x3F]) = some [.errBadLength 0x3F] ∧
    sequencer (.rxChunk [0xC8, 0x3E]) = some (.awaitBody, 2) ∧
    events (.rxChunk [0xC8, 0xC8, 0xEA, 0x02]) = some [.errBadLength 0xC8, .errBadLength 0xEA] ∧
    sequencer (.rxChunk [0xC8, 0xC8, 0xEA, 0x02]) = some (.awaitBody, 2) := by decide +kernel
/-- V19d and P5's false sync: six bytes consumed, no rescan. -/
theorem test_rxChunk_false_sync :
    events (.rxChunk [0xEA, 0x04, 0x01, 0x02, 0x03, 0x04]) = some [.errCrcMismatch 0x3F 0x04] ∧
    events (.rxChunk [0xEA, 0x04, 0x01, 0x02, 0xC8, 0x18, 0x16]) =
      some [.errCrcMismatch 0xCE 0x18, .errDesyncSkip 0x16] := by decide +kernel
/-- R108: a host operation falls between the first and the second byte of V19a, and sees nothing of it. -/
theorem test_rxChunk_is_not_atomic :
    (nextOf (andThen (step { ready with inbox := [.request .serial [0xC8, 0x02, 0x7F, 0x16], .request .host [0x03]] })
      step)).map (fun t => (t.res, t.rxs, t.src)) = some ([.bit true], .readLength, [0x02, 0x7F, 0x16]) := by
  decide +kernel
/-- R100, R223: a byte presented before `INIT` is taken after it, alone, in a step of the receive agent. -/
theorem test_waiting_byte :
    (nextOf (andThen (execAll [.rxByte 0xC8, .init 0xD5 true] State.reset)
      fun t => step { t with inbox := [.receive] })).map (fun t => (t.rxs, t.src, t.inbox)) =
      some (.readLength, [], []) := by decide +kernel
/-- 2.2, `FRAME_ENCODE`. -/
theorem test_frameEncode :
    answer (.frameEncode 0xC8 0x7F []) = some [.bytes [0xC8, 0x02, 0x7F, 0x16]] ∧
    (nextOf (exec (.frameEncode 0xC8 0x7F (List.replicate 61 0)) ready)).map (fun t => (t.ev, t.res)) =
      some ([.errEncodingLimit 61], [.error .encodingLimit]) := by decide +kernel

/-! ## Channel words -/

/-- V22, V26, V29. -/
theorem test_chUnpack :
    chUnpack payload992 = Vector.replicate 16 992 ∧
    (chUnpack (0x00 :: 0x08 :: List.replicate 20 0)).toList.take 2 = [0, 1] ∧
    (chUnpack (List.replicate 21 0 ++ [0x80])).toList.getD 15 0 = 1024 := by decide +kernel
/-- V30, V25. -/
theorem test_chPack :
    chPack ⟨(([4095, 2048, 65535] ++ List.replicate 13 0 : List (BitVec 16))).toArray, by decide⟩ =
      [0xFF, 0xFF, 0xFF, 0xFF, 0x01] ++ List.replicate 17 0 ∧
    chPack ⟨((List.replicate 15 0 ++ [2047] : List (BitVec 16))).toArray, by decide⟩ =
      List.replicate 20 0 ++ [0xE0, 0xFF] := by decide +kernel

/-! ## Marshaler -/

/-- V32, V35, V36. -/
theorem test_beGet :
    answer (.beGet16 [0xAA, 0x12, 0x34] 1) = some [.u16 0x1234] ∧
    answer (.beGet24 [0x9A, 0xBC, 0xDE] 0) = some [.u24 0x9ABCDE] ∧
    answer (.beGet32 [0x1E, 0xB3, 0x67, 0xD0] 0) = some [.u32 515074000] := by decide +kernel
/-- Outside its sequence a read completes with a value the spec does not state. -/
theorem test_beGet_outside :
    (answer (.beGet16 [0x12] 0)).map List.length = some 1 ∧ (answer (.beGets .w24 [] 255)).map List.length = some 1 :=
  ⟨rfl, rfl⟩
/-- V31, V34, and R135's example. -/
theorem test_bePut :
    answer (.bePut16 168) = some [.bytes [0x00, 0xA8]] ∧ answer (.bePut24 1500) = some [.bytes [0x00, 0x05, 0xDC]] ∧
    answer (.bePut32 0xFFEC7FD0) = some [.bytes [0xFF, 0xEC, 0x7F, 0xD0]] := by decide +kernel
/-- V37, V38, V39. -/
theorem test_beGets :
    answer (.beGets .w24 [0x80, 0x00, 0x00] 0) = some [.i32 (BitVec.ofInt 32 (-8388608))] ∧
    answer (.beGets .w16 [0xFF, 0xC9] 0) = some [.i32 (BitVec.ofInt 32 (-55))] ∧
    answer (.beGets .w32 [0x7F, 0xFF, 0xFF, 0xFF] 0) = some [.i32 2147483647] := by decide +kernel
/-- V37, V38, V39. -/
theorem test_bePuts :
    bePuts .w24 (BitVec.ofInt 32 (-1000)) = [0xFF, 0xFC, 0x18] ∧
    bePuts .w16 (BitVec.ofInt 32 (-32768)) = [0x80, 0x00] ∧
    bePuts .w32 (BitVec.ofInt 32 (-2147483648)) = [0x80, 0x00, 0x00, 0x00] := by decide +kernel

/-! ## Payload codecs -/

theorem test_batteryUnpack :
    answer (.batteryUnpack [0x12, 0x34, 0x56, 0x78, 0x9A, 0xBC, 0xDE, 0xF0]) =
      some [.battery ⟨0x1234, 0x5678, 0x9ABCDE, 0xF0⟩] ∧
    answer (.batteryUnpack [0x12]) = some [.shapeError] := by decide +kernel
theorem test_batteryPack_V42 :
    answer (.batteryPack ⟨0x1234, 0x5678, 0x9ABCDE, 0xF0⟩) =
      some [.bytes [0x12, 0x34, 0x56, 0x78, 0x9A, 0xBC, 0xDE, 0xF0]] := by decide +kernel
theorem test_gpsUnpack :
    answer (.gpsUnpack payload43) = some [.gps gps43] ∧ answer (.gpsUnpack (List.replicate 13 0)) = some [.shapeError] := by
  decide +kernel
theorem test_gpsPack_V44 :
    answer (.gpsPack ⟨BitVec.ofInt 32 (-2147483648), 2147483647, 65535, 35999, 0, 255⟩) =
      some [.bytes [0x80, 0x00, 0x00, 0x00, 0x7F, 0xFF, 0xFF, 0xFF, 0xFF, 0xFF, 0x8C, 0x9F, 0x00, 0x00, 0xFF]] := by
  decide +kernel
/-- R145's example, and its shape errors. -/
theorem test_rpmUnpack :
    answer (.rpmUnpack [0x01, 0xFF, 0xFC, 0x18, 0x7F, 0xFF, 0xFF]) =
      some [.rpm ⟨1, [BitVec.ofInt 32 (-1000), 8388607]⟩] ∧
    answer (.rpmUnpack [0x01]) = some [.shapeError] ∧ answer (.rpmUnpack (List.replicate 5 0)) = some [.shapeError] := by
  decide +kernel
theorem test_rpmPack :
    answer (.rpmPack 0 [BitVec.ofInt 32 (-1000)]) = some [.bytes [0x00, 0xFF, 0xFC, 0x18]] ∧
    answer (.rpmPack 0 []) = some [.refused .range] := by decide +kernel
/-- R147's examples. -/
theorem test_tempUnpack :
    answer (.tempUnpack [0x02, 0x00, 0xFA, 0xFF, 0xC9]) = some [.temp ⟨2, [250, BitVec.ofInt 16 (-55)]⟩] ∧
    answer (.tempUnpack (List.replicate 4 0)) = some [.shapeError] ∧
    answer (.tempUnpack (List.replicate 43 0)) = some [.shapeError] := by decide +kernel
theorem test_tempPack :
    answer (.tempPack 2 [BitVec.ofInt 16 (-55)]) = some [.bytes [0x02, 0xFF, 0xC9]] ∧
    (packed (tempPack 3 (List.replicate 25 1)) = .bytes (3 :: (List.replicate 20 [0x00, 0x01]).flatten)) := by
  decide +kernel
theorem test_link_codec :
    answer (.linkUnpack link59.toList) = some [.linkStatistics link59] ∧
    answer (.linkUnpack [0x01]) = some [.shapeError] ∧ answer (.linkPack link59) = some [.bytes link59.toList] := by
  decide +kernel
theorem test_dispatch :
    events (.dispatch 0xC8 0x7F []) = some [.errUnsupportedType 0x7F, .generic 0xC8 0x7F []] ∧
    events (.dispatch 0xC8 0x16 (List.replicate 21 0xFF)) = some [.errPayloadShape 0x16 21] := by decide +kernel

/-! ## Snapshot and failsafe -/

theorem test_store :
    (nextOf (execAll [.stUpdateCh (Vector.replicate 16 992), .stUpdateLs link59, .stReadCh, .stReadLs] ready)).map
      (·.res) = some [.ch (Vector.replicate 16 992), .linkStatistics link59] := by decide +kernel
theorem test_feed_and_expire :
    (nextOf (execAll [.fsFeed, .fsQuery] ready)).map (fun t => (t.wdtCnt, t.res)) = some (500, [.bit false]) ∧
    (nextOf (execAll [.fsFeed, .fsExpire, .fsQuery] ready)).map (fun t => (t.wdtArmed, t.res, t.ev)) =
      some (false, [.bit true], [.failsafe]) := by decide +kernel
/-- V77 and V78 around the expiry. -/
theorem test_tick :
    (nextOf (exec .tick ready)).map (fun t => (t.fs, t.wdtCnt)) = some (true, 0) ∧
    (nextOf (exec .tick { ready with fs := false, wdtArmed := true, wdtCnt := 2 })).map (fun t => (t.fs, t.wdtCnt)) =
      some (false, 1) ∧
    (nextOf (exec .tick { ready with fs := false, wdtArmed := true, wdtCnt := 1 })).map
      (fun t => (t.fs, t.wdtArmed, t.ev)) = some (true, false, [.failsafe]) := by decide +kernel

/-! ## Witnesses: for each statement with hypotheses, states and operands that meet all of them -/

/-- A request at the unit port. -/
def unitRequest (bytes : List Byte) : Entry := .request .unit bytes

/-- `ready` with steps to come. -/
def readyWith (steps : List Entry) : State := { ready with inbox := steps }

/-- A frame `C8 02 7F 16` (V19a) held up to its last byte. -/
def lastByteNext : State :=
  { ready with rxs := .awaitBody, rxn := 3, rxlen := 2, rxbuf := [(0, 0xC8), (1, 0x02), (2, 0x7F)] }

/-- The longest frame, its body about to begin. -/
def bodyBegins : State := { ready with rxs := .awaitBody, rxn := 2, rxlen := 62, rxbuf := [(0, 0xEA), (1, 62)] }

/-- A destination byte held. -/
def lengthNext : State := { ready with rxs := .readLength, rxn := 1, rxbuf := [(0, 0xC8)] }

/-- An armed engine, one tick before expiry. -/
def armedEngine : State := { ready with fs := false, wdtArmed := true, wdtCnt := 1 }

theorem ready_inv (steps : List Entry) : EngineInv (readyWith steps) where
  tableForm := crcTable_form 0xD5
  rxbufForm := ⟨rfl, rfl⟩
  txbufForm := ⟨rfl, rfl⟩
  seeking := ⟨fun _ => rfl, fun _ => rfl⟩
  lengthNext := ⟨fun h => (by cases h), fun h => (by cases h)⟩
  syncHeld := fun h => absurd rfl h
  bodyBounds := fun h => by cases h
  heldWritten := fun k h => absurd h (Nat.not_lt_zero k)
  armed := fun h => by cases h
  disarmed := fun _ => rfl
  tableBuilt := fun _ => rfl

theorem ready_receives : ReadyToReceive ready := ⟨ready_inv [], rfl, rfl, rfl⟩

theorem lastByteNext_inv : EngineInv lastByteNext where
  tableForm := crcTable_form 0xD5
  rxbufForm := ⟨rfl, rfl⟩
  txbufForm := ⟨rfl, rfl⟩
  seeking := ⟨fun h => (by cases h), fun h => (by cases h)⟩
  lengthNext := ⟨fun h => (by cases h), fun h => (by cases h)⟩
  syncHeld := fun _ => rfl
  bodyBounds := fun _ => ⟨by decide, by decide, by decide, by decide, rfl⟩
  heldWritten := fun k h => by
    have h : k < 3 := h
    have : k = 0 ∨ k = 1 ∨ k = 2 := by omega
    rcases this with rfl | rfl | rfl <;> rfl
  armed := fun h => by cases h
  disarmed := fun _ => rfl
  tableBuilt := fun _ => rfl

theorem bodyBegins_inv : EngineInv bodyBegins where
  tableForm := crcTable_form 0xD5
  rxbufForm := ⟨rfl, rfl⟩
  txbufForm := ⟨rfl, rfl⟩
  seeking := ⟨fun h => (by cases h), fun h => (by cases h)⟩
  lengthNext := ⟨fun h => (by cases h), fun h => (by cases h)⟩
  syncHeld := fun _ => rfl
  bodyBounds := fun _ => ⟨by decide, by decide, by decide, by decide, rfl⟩
  heldWritten := fun k h => by
    have h : k < 2 := h
    have : k = 0 ∨ k = 1 := by omega
    rcases this with rfl | rfl <;> rfl
  armed := fun h => by cases h
  disarmed := fun _ => rfl
  tableBuilt := fun _ => rfl

theorem reset_inv (steps : List Entry) (c : Nat) (l : Byte) (buf : Memory)
    (h : buf.wf = true ∧ buf.below (arraySize .txbuf) = true) :
    EngineInv { State.reset with inbox := steps, wdtCnt := c, rxlen := l, txbuf := buf } where
  tableForm := ⟨rfl, rfl⟩
  rxbufForm := ⟨rfl, rfl⟩
  txbufForm := h
  seeking := ⟨fun _ => rfl, fun _ => rfl⟩
  lengthNext := ⟨fun h => (by cases h), fun h => (by cases h)⟩
  syncHeld := fun h => absurd rfl h
  bodyBounds := fun h => by cases h
  heldWritten := fun k h => absurd h (Nat.not_lt_zero k)
  armed := fun h => by cases h
  disarmed := fun _ => rfl
  tableBuilt := fun h => by cases h

theorem reset_quiet (steps : List Entry) : QuietBeforeInit { State.reset with inbox := steps } :=
  ⟨fun _ => ⟨rfl, rfl⟩, fun _ => ⟨rfl, rfl⟩, fun _ => ⟨rfl, rfl⟩⟩

theorem witness_DecodeOfEncodeIsTheInstr :
    Config.params.ok = true ∧ Instr.wf Config.params (.generic .tx 0x7F (List.replicate 60 0xFF) 0) = true ∧
    Instr.wf Config.params (.reservedOp 8) = true ∧ Instr.wf Config.params (.beGets .w24 [0x01] 255) = true ∧
    Params.ok { Config.params with tickMs := 500 } = true := by decide

theorem witness_ReservedHostCodesAreRefusedByName :
    (8 ≤ (0x08 : Byte).toNat ∧ (0x08 : Byte).toNat < 64) ∧ (8 ≤ (0x3F : Byte).toNat ∧ (0x3F : Byte).toNat < 64) := by
  decide

/-- One state for each clause. -/
theorem witness_StepRunsTheDecodedInstr :
    ((readyWith [unitRequest [0x3A]]).inbox = .request .unit [0x3A] :: [] ∧
      decode Config.params .unit [0x3A] = .ok .tick) ∧
    ((readyWith [unitRequest [0x1F]]).inbox = .request .unit [0x1F] :: [] ∧
      decode Config.params .unit [0x1F] = .error (.notAUnit 0x1F)) ∧
    (readyWith [.reset]).inbox = .reset :: [] ∧ (readyWith [.receive]).inbox = .receive :: [] ∧
    (readyWith []).inbox = [] ∧ (readyWith []).src = [] ∧ State.reset.inited = false := by
  refine ⟨⟨rfl, rfl⟩, ⟨rfl, rfl⟩, rfl, rfl, rfl, rfl, rfl⟩

theorem witness_ResetLeavesTheStatedValues : (readyWith [.reset, .reset]).inbox = .reset :: [.reset] := rfl

theorem witness_EveryStepKeepsTheInvariants :
    ∃ t, EngineInv (readyWith [unitRequest [0x38]]) ∧ step (readyWith [unitRequest [0x38]]) = .next t :=
  ⟨_, ready_inv _, rfl⟩

theorem witness_AgentStepsKeepQuietBeforeInit :
    ∃ s t, QuietBeforeInit s ∧ s.inited = false ∧ agentNext s = true ∧ step s = .next t :=
  ⟨{ State.reset with inbox := [unitRequest [0x12, 0xC8]] }, _, reset_quiet _, rfl, rfl, rfl⟩

theorem witness_AgentStepsNeverStop :
    EngineInv (readyWith [unitRequest [0x12, 0xC8]]) ∧ agentNext (readyWith [unitRequest [0x12, 0xC8]]) = true :=
  ⟨ready_inv _, rfl⟩

/-- Two states that differ in four unspecified elements. -/
theorem witness_UnspecifiedElementsAreNeverRead :
    ∃ s t : State, EngineInv s ∧ EngineInv t ∧ live s = live t ∧ s ≠ t :=
  ⟨_, _, reset_inv [] 0 0 [] ⟨rfl, rfl⟩, reset_inv [] 7 9 [(63, 0x01)] ⟨rfl, rfl⟩, rfl, by decide⟩

theorem witness_OutputStreamsOnlyGrow : ∃ t, exec .fsExpire ready = .next t := ⟨_, rfl⟩

/-- A tick that expires, the last byte of a frame, a waiting byte, and the first `INIT` in a state with `FS` = 0. -/
theorem witness_RegistersFollowTheAcceptedFrames :
    (agentStep .tick = true ∧ ∃ t, exec .tick armedEngine = .next t) ∧
    (agentStep (.rxByte 0x16) = true ∧ (nextOf (exec (.rxByte 0x16) lastByteNext)).isSome = true) ∧
    (∃ t, takeByte Config.params { ready with src := [0xC8, 0x18] } = .next t) ∧
    (agentStep (.init 0xD5 true) = true ∧ ∃ t, exec (.init 0xD5 true) { State.reset with fs := false } = .next t) := by
  refine ⟨⟨rfl, _, rfl⟩, ⟨rfl, by decide +kernel⟩, ⟨_, rfl⟩, rfl, _, rfl⟩

theorem witness_HostOperationsFrame :
    (portOf (.init 0xD5 true) = .host ∧ ∃ t, exec (.init 0xD5 true) State.reset = .next t) ∧
    (portOf .isFailsafe = .host ∧ ∃ t, exec .isFailsafe ready = .next t) ∧
    (∀ poly v, Instr.isFailsafe ≠ .init poly v) ∧ (∀ d x, Instr.isFailsafe ≠ .sendBattery d x) ∧
    (∀ d x, Instr.isFailsafe ≠ .sendGps d x) ∧ (∀ d n x, Instr.isFailsafe ≠ .sendRpm d n x) ∧
    (∀ d n x, Instr.isFailsafe ≠ .sendTemp d n x) := by
  refine ⟨⟨rfl, _, rfl⟩, ⟨rfl, _, rfl⟩, ?_, ?_, ?_, ?_, ?_⟩ <;> intros <;> simp

theorem witness_ChecksumLaws : ([0x01, 0x02] : List Byte).length = ([0xFF, 0x00] : List Byte).length := rfl

theorem witness_OddPolynomialCatchesOneByte : (0xD5 : Byte).getLsbD 0 = true ∧ (0xDE : Byte) ≠ 0xDF := by decide

/-- With nothing waiting, and with bytes waiting before the one presented. -/
theorem witness_SeekSyncStep :
    (ready.inited = true ∧ ready.src ++ [0xC8] = 0xC8 :: [] ∧ ready.rxs = .seekSync) ∧
    { ready with src := [0x00, 0x02] }.src ++ [0xC8] = 0x00 :: [0x02, 0xC8] := ⟨⟨rfl, rfl, rfl⟩, rfl⟩

theorem witness_ReadLengthStep :
    (lengthNext.inited = true ∧ lengthNext.src ++ [62] = 62 :: [] ∧ lengthNext.rxs = .readLength) ∧
    { lengthNext with src := [0x3F] }.src ++ [0x02] = 0x3F :: [0x02] := ⟨⟨rfl, rfl, rfl⟩, rfl⟩

/-- Both clauses: the last body byte of the shortest frame, and the first body byte of the longest. -/
theorem witness_AwaitBodyStep :
    (EngineInv lastByteNext ∧ lastByteNext.inited = true ∧ lastByteNext.src ++ [0x16] = 0x16 :: [] ∧
      lastByteNext.rxs = .awaitBody ∧ lastByteNext.rxn + 1 = lastByteNext.rxlen.toNat + 2) ∧
    (EngineInv bodyBegins ∧ bodyBegins.inited = true ∧ bodyBegins.src ++ [0x16] = 0x16 :: [] ∧
      bodyBegins.rxs = .awaitBody ∧ bodyBegins.rxn + 1 ≠ bodyBegins.rxlen.toNat + 2) :=
  ⟨⟨lastByteNext_inv, rfl, rfl, rfl, by decide⟩, ⟨bodyBegins_inv, rfl, rfl, rfl, by decide⟩⟩

/-- Each clause: a byte stored and a byte not stored, in each state of the sequencer. -/
theorem witness_RxByteFrame :
    (ready.inited = true ∧ ready.src ++ [0x00] = 0x00 :: [] ∧ ready.src ++ [0xC8] = 0xC8 :: [] ∧
      lengthNext.src ++ [0x02] = 0x02 :: [] ∧ bodyBegins.src ++ [0x00] = 0x00 :: [] ∧
      lastByteNext.src ++ [0x16] = 0x16 :: []) ∧
    (storedAt 0x00 ready = none ∧ ∃ t, exec (.rxByte 0x00) ready = .next t) ∧
    (storedAt 0xC8 ready = some 0 ∧ ∃ t, exec (.rxByte 0xC8) ready = .next t) ∧
    (storedAt 0x02 lengthNext = some 1 ∧ ∃ t, exec (.rxByte 0x02) lengthNext = .next t) ∧
    (storedAt 0x00 bodyBegins = some 2 ∧ ∃ t, exec (.rxByte 0x00) bodyBegins = .next t) ∧
    (storedAt 0x16 lastByteNext = some 3 ∧ (nextOf (exec (.rxByte 0x16) lastByteNext)).isSome = true) := by
  refine ⟨⟨rfl, rfl, rfl, rfl, rfl, rfl⟩, ⟨rfl, _, rfl⟩, ⟨rfl, _, rfl⟩, ⟨rfl, _, rfl⟩, ⟨rfl, _, rfl⟩, rfl,
    by decide +kernel⟩

theorem witness_SequencerMatchesTheCursor : ReadyToReceive ready := ready_receives

theorem witness_BytesWaitForInit :
    State.reset.inited = false ∧ { ready with src := [0xC8] }.inited = true ∧ ready.src = [] ∧
    ([0xC8] : List Byte) ≠ [] ∧ ∃ t, takeByte Config.params { ready with src := [0xC8, 0x02] } = .next t :=
  ⟨rfl, rfl, rfl, by simp, _, rfl⟩

theorem witness_EncodedFrameIsDispatchedOnce :
    ([] : List Byte).length ≤ 60 ∧ (List.replicate 60 (0xFF : Byte)).length ≤ 60 ∧ ready.inited = true ∧
    ready.rxs = .seekSync ∧ ready.table = crcTable ready.cfg.poly ∧ ReadyToReceive ready := by
  refine ⟨by decide, by decide, rfl, rfl, rfl, ready_receives⟩

/-- V43, V40, V50, V56. -/
theorem witness_TelemetryFramesLeaveAsOneEvent :
    ReadyToReceive ready ∧
    (gpsUnpack payload43 = some gps43 ∧ crcAccepted Config.params.typeGps payload43 0x87 ready = true) ∧
    (batteryUnpack [0x00, 0xA8, 0x00, 0x19, 0x00, 0x05, 0xDC, 0x57] = some ⟨168, 25, 1500, 87⟩ ∧
      crcAccepted Config.params.typeBattery [0x00, 0xA8, 0x00, 0x19, 0x00, 0x05, 0xDC, 0x57] 0x20 ready = true) ∧
    (rpmUnpack [0x00, 0xFF, 0xFC, 0x18] = some ⟨0, [BitVec.ofInt 32 (-1000)]⟩ ∧
      crcAccepted Config.params.typeRpm [0x00, 0xFF, 0xFC, 0x18] 0x60 ready = true) ∧
    (tempUnpack [0x02, 0x00, 0xFA, 0xFF, 0xC9, 0x00, 0x00, 0x80, 0x00, 0x7F, 0xFF] =
        some ⟨2, [250, BitVec.ofInt 16 (-55), 0, BitVec.ofInt 16 (-32768), 32767]⟩ ∧
      crcAccepted Config.params.typeTemp [0x02, 0x00, 0xFA, 0xFF, 0xC9, 0x00, 0x00, 0x80, 0x00, 0x7F, 0xFF] 0x4B ready =
        true) :=
  ⟨ready_receives, by decide +kernel⟩

theorem witness_ChannelsFrameUpdatesAndFeeds :
    ReadyToReceive ready ∧ payload992.length = 22 ∧ crcAccepted Config.params.typeChannels payload992 0xAD ready = true :=
  ⟨ready_receives, by decide +kernel⟩

theorem witness_LinkFrameUpdatesStatistics :
    ReadyToReceive ready ∧ crcAccepted Config.params.typeLink link59.toList 0xB0 ready = true :=
  ⟨ready_receives, by decide +kernel⟩

/-- The empty payload of V19a, and one of sixty bytes. -/
theorem witness_GenericFrameIsIgnored :
    ReadyToReceive ready ∧ (0x7F : Byte) ∉ Config.params.types ∧ crcAccepted 0x7F [] 0x16 ready = true ∧
    (List.replicate 60 (0 : Byte)).length ≤ 60 ∧
    crcAccepted 0x7F (List.replicate 60 0) (crcBitwise 0xD5 (0x7F :: List.replicate 60 0)) ready = true :=
  ⟨ready_receives, by decide +kernel⟩

theorem witness_WrongChecksumDropsTheFrame :
    ReadyToReceive ready ∧ payload992.length ≤ 60 ∧ ready.cfg.crcVerify = true ∧
    crcBitwise ready.cfg.poly (0x16 :: payload992) ≠ 0xAC :=
  ⟨ready_receives, by decide +kernel⟩

/-- Each type with a length next to an admitted one; V19e, V19f and V19g among them. -/
theorem witness_WrongShapeDropsTheFrame :
    ReadyToReceive ready ∧
    (crcAccepted Config.params.typeChannels (List.replicate 21 0xFF) 0xDA ready = true ∧
      (List.replicate 21 (0xFF : Byte)).length ≠ 22) ∧
    (∀ p ∈ [List.replicate 7 (0 : Byte), List.replicate 9 0],
      crcAccepted Config.params.typeBattery p (crcBitwise 0xD5 (0x08 :: p)) ready = true ∧ p.length ≠ 8) ∧
    (∀ p ∈ [List.replicate 13 (0 : Byte), List.replicate 16 0],
      crcAccepted Config.params.typeGps p (crcBitwise 0xD5 (0x02 :: p)) ready = true ∧ p.length ≠ 15) ∧
    (∀ p ∈ [List.replicate 9 (0 : Byte), List.replicate 11 0],
      crcAccepted Config.params.typeLink p (crcBitwise 0xD5 (0x14 :: p)) ready = true ∧ p.length ≠ 10) ∧
    crcAccepted Config.params.typeRpm [0x05, 0x00, 0x00, 0x01, 0x09] 0xC7 ready = true ∧
    crcAccepted Config.params.typeTemp (List.replicate 43 0) (crcBitwise 0xD5 (0x0D :: List.replicate 43 0)) ready = true ∧
    (¬∃ N, 1 ≤ N ∧ N ≤ 19 ∧ 5 = 1 + 3 * N) ∧ (¬∃ N, 1 ≤ N ∧ N ≤ 20 ∧ 43 = 1 + 2 * N) := by
  refine ⟨ready_receives, by decide +kernel, by decide +kernel, by decide +kernel, by decide +kernel, by decide +kernel,
    by decide +kernel, ?_, ?_⟩
  · rintro ⟨N, -, -, h⟩; omega
  · rintro ⟨N, -, h, h'⟩; omega

theorem witness_ReceivedFrameFrame :
    ReadyToReceive ready ∧ ([] : List Byte).length ≤ 60 ∧
    (settled (frameOfType Config.params .fc 0x7F [] 0x16)).isSome = true :=
  ⟨ready_receives, by decide +kernel⟩

theorem witness_PipelineRoundTrips :
    ReadyToReceive ready ∧ ((List.replicate 19 1 : List (BitVec 32)).length ≤ 19 ∧
      (rpmPack 7 (List.replicate 19 1)).isSome = true) ∧
    ((List.replicate 20 1 : List (BitVec 16)).length ≤ 20 ∧ (tempPack 7 (List.replicate 20 1)).isSome = true) :=
  ⟨ready_receives, by decide +kernel⟩

theorem witness_FrameEncodeBuildsTheFrame :
    EngineInv ready ∧ ready.inited = true ∧ (List.replicate 60 (0 : Byte)).length ≤ 60 ∧
    60 < (List.replicate 61 (0 : Byte)).length :=
  ⟨ready_inv [], rfl, by decide, by decide⟩

theorem witness_UnitOperationsOutsideTheirPreconditions : State.reset.inited = false := rfl

theorem witness_ChannelWordsRoundTrip : payload992.length = 22 := rfl

theorem witness_ChannelByteTablesAgree : payload992.length = 22 := rfl

theorem witness_BigEndianReads :
    0 + 2 ≤ ([0x12, 0x34] : List Byte).length ∧ 1 + 3 ≤ ([0x00, 0x9A, 0xBC, 0xDE] : List Byte).length ∧
    0 + 4 ≤ ([0x1E, 0xB3, 0x67, 0xD0] : List Byte).length := by decide

theorem witness_SignedReadsExtendTheSign :
    (0 + 2 ≤ ([0x7F, 0xFF] : List Byte).length ∧ ¬2 ^ 15 ≤ (beGet16 [0x7F, 0xFF] 0).toNat) ∧
    (0 + 2 ≤ ([0x80, 0x00] : List Byte).length ∧ 2 ^ 15 ≤ (beGet16 [0x80, 0x00] 0).toNat) ∧
    (0 + 3 ≤ ([0x80, 0x00, 0x00] : List Byte).length ∧ 2 ^ 23 ≤ (beGet24 [0x80, 0x00, 0x00] 0).toNat) ∧
    (0 + 4 ≤ ([0x80, 0x00, 0x00, 0x00] : List Byte).length ∧ 2 ^ 31 ≤ (beGet32 [0x80, 0x00, 0x00, 0x00] 0).toNat) := by
  decide +kernel

theorem witness_MarshalerRoundTrips :
    1 + 2 ≤ ([0x00, 0x12, 0x34] : List Byte).length ∧ 0 + 3 ≤ ([0x9A, 0xBC, 0xDE] : List Byte).length ∧
    0 + 4 ≤ ([0x1E, 0xB3, 0x67, 0xD0] : List Byte).length ∧
    inSignedRange .w24 (BitVec.ofInt 32 (-8388608)) = true := by decide +kernel

/-- The ends of each width's range. -/
theorem witness_SignedWritesTwosComplement :
    ∀ w ∈ [Width.w16, Width.w24, Width.w32],
      inSignedRange w (BitVec.ofInt 32 (-(2 ^ (widthBits w - 1)))) = true ∧
      inSignedRange w (BitVec.ofInt 32 (2 ^ (widthBits w - 1) - 1)) = true := by decide +kernel

/-- The ends of the admitted lengths, and lengths next to them. -/
theorem witness_ListUnpacks :
    (List.replicate 4 (0 : Byte)).length = 1 + 3 * 1 ∧ (List.replicate 58 (0 : Byte)).length = 1 + 3 * 19 ∧
    (List.replicate 3 (0 : Byte)).length = 1 + 2 * 1 ∧ (List.replicate 41 (0 : Byte)).length = 1 + 2 * 20 ∧
    (¬∃ N, 1 ≤ N ∧ N ≤ 19 ∧ (List.replicate 61 (0 : Byte)).length = 1 + 3 * N) ∧
    (¬∃ N, 1 ≤ N ∧ N ≤ 20 ∧ (List.replicate 43 (0 : Byte)).length = 1 + 2 * N) := by
  refine ⟨rfl, rfl, rfl, rfl, ?_, ?_⟩ <;> rintro ⟨N, h1, h2, h⟩ <;> simp at h <;> omega

theorem witness_FixedRecordUnpacks :
    link59.toList = [0x28, 0x2A, 0x64, 0x0A, 0x00, 0x02, 0x03, 0x32, 0x63, 0xFB] ∧
    (List.replicate 9 (0 : Byte)).length ≠ 10 := by decide

theorem witness_InitSetsUpOnce :
    State.reset.inited = false ∧ ready.inited = true ∧ ∃ t, exec (.init 0xD5 true) State.reset = .next t :=
  ⟨rfl, rfl, _, rfl⟩

theorem witness_FixedRecordSends : EngineInv ready ∧ ready.inited = true := ⟨ready_inv [], rfl⟩

/-- The ends of the range kept, and a twentieth entry out of range, which is dropped. -/
theorem witness_ListSends :
    EngineInv ready ∧ ready.inited = true ∧
    (List.replicate 18 (BitVec.ofInt 32 (-8388608)) ++ [8388607, 8388608] : List (BitVec 32)) ≠ [] ∧
    (∀ x ∈ (List.replicate 18 (BitVec.ofInt 32 (-8388608)) ++ [8388607, 8388608] : List (BitVec 32)).take 19,
      -8388608 ≤ x.toInt ∧ x.toInt ≤ 8388607) ∧
    ([0x8000] : List (BitVec 16)) ≠ [] := by
  refine ⟨ready_inv [], rfl, by simp, ?_, by simp⟩
  intro x hx
  have h : x = BitVec.ofInt 32 (-8388608) ∨ x = 8388607 := by
    have e : (List.replicate 18 (BitVec.ofInt 32 (-8388608)) ++ [8388607, 8388608] : List (BitVec 32)).take 19 =
        List.replicate 18 (BitVec.ofInt 32 (-8388608)) ++ [8388607] := rfl
    rw [e, List.mem_append, List.mem_replicate, List.mem_singleton] at hx
    exact hx.imp (·.2) id
  rcases h with rfl | rfl
  · exact ⟨by decide +kernel, by decide +kernel⟩
  · exact ⟨by decide +kernel, by decide +kernel⟩

/-- Both ends of the range, one step outside. -/
theorem witness_RefusedSendsWriteNothing :
    State.reset.inited = false ∧ ready.inited = true ∧ ([] : List (BitVec 32)) = [] ∧
    (∃ x ∈ ([8388608] : List (BitVec 32)).take 19, x.toInt < -8388608 ∨ 8388607 < x.toInt) ∧
    (∃ x ∈ ([BitVec.ofInt 32 (-8388609)] : List (BitVec 32)).take 19, x.toInt < -8388608 ∨ 8388607 < x.toInt) :=
  ⟨rfl, rfl, rfl, ⟨_, List.mem_singleton.2 rfl, .inr (by decide +kernel)⟩,
    ⟨_, List.mem_singleton.2 rfl, .inl (by decide +kernel)⟩⟩

theorem witness_SendFillsTxbuf :
    portOf (.sendRpm .fc 0 [1]) = .host ∧
    (nextOf (exec (.sendRpm .fc 0 [1]) ready)).map (fun t => decide (t.tx ≠ [])) = some true ∧ ready.tx = [] := by
  refine ⟨rfl, by decide +kernel, rfl⟩

end Sys2Proof.Tests
end

/-! PROOFS. What the state keeps (10_state.md): the invariants of every step, the engine before `INIT`, the output
streams, and the registers a host reads. -/

namespace Sys2Proof.Machine

/-! ## What an operation and a step can do -/

/-- What an operation that completes did, whatever its operands: one case for each way the state changes. Where only
one operation makes a change, the case names the operation. -/
inductive ExecDid (s : State) : Instr → State → Prop where
  | gave (i : Instr) (r : Result) : ExecDid s i (give r s)
  | failed (i : Instr) (code : ErrCode) (e : Event) (he : isErrorEvent e = true) :
      ExecDid s i (give (.error code) (raise e s))
  | sent (i : Instr) (f out : List Byte) (buf : Memory) (hi : s.inited = true)
      (hw : memWriteFrom .txbuf s.txbuf 0 f = .ok buf) (hr : memReadFrom .txbuf buf 0 f.length = .ok out) :
      ExecDid s i (give .ok (txWrite out (setTxbuf buf s)))
  | offered (i : Instr) (bs : List Byte) (t : State) (h : offer Config.params bs s = .next t) : ExecDid s i t
  | emptyChunk : ExecDid s (.rxChunk []) s
  | initialised (poly : Byte) (v : Bool) (hi : s.inited = false) : ExecDid s (.init poly v) (give .ok (setUp poly v s))
  | ticked : ExecDid s .tick (tickWatchdog s)
  | dispatched (dest type : Byte) (p : List Byte) :
      ExecDid s (.dispatch dest type p) (dispatch Config.params dest type p s)
  | storedChannels (v : Vector (BitVec 11) 16) : ExecDid s (.stUpdateCh v) (updateChannels v s)
  | storedLinkStats (ls : Vector Byte 10) : ExecDid s (.stUpdateLs ls) (updateLinkStats ls s)
  | fed : ExecDid s .fsFeed (feedWatchdog Config.params s)
  | expired : ExecDid s .fsExpire (expireWatchdog s)

variable {s t : State}

theorem sendFrame_did {P : Params} {op : BitVec 6} {d : Dest} {ty : Byte} {p : List Byte} (i : Instr)
    (h : sendFrame P op d ty p s = .next t) : ExecDid s i t := by
  rcases sendFrame_next h with ⟨-, rfl⟩ | ⟨-, -, rfl⟩ | ⟨hi, -, f, buf, out, -, hw, hr, rfl⟩
  · exact .failed i _ _ rfl
  · exact .failed i _ _ rfl
  · exact .sent i f out buf hi hw hr

theorem sendPacked_did {P : Params} {op : BitVec 6} {d : Dest} {ty : Byte} {p : Option (List Byte)} (i : Instr)
    (h : sendPacked P op d ty p s = .next t) : ExecDid s i t := by
  unfold sendPacked at h
  split at h
  · cases h
    exact .failed i _ _ rfl
  · cases p with
    | none =>
      cases h
      exact .failed i _ _ rfl
    | some p => exact sendFrame_did i h

theorem execFrameEncode_did {dest type : Byte} {p : List Byte} (i : Instr)
    (h : execFrameEncode dest type p s = .next t) : ExecDid s i t := by
  unfold execFrameEncode at h
  split at h
  · cases h
  split at h
  · cases h
    exact .failed i _ _ rfl
  · obtain ⟨f, -, h⟩ := withValue_next h
    cases h
    exact .gave i _

theorem execInit_did {poly : Byte} {v : Bool} (h : execInit poly v s = .next t) : ExecDid s (.init poly v) t := by
  cases h
  cases hi : s.inited with
  | true => exact .gave _ _
  | false => exact .initialised poly v hi

theorem execRxChunk_did {bs : List Byte} (h : execRxChunk bs s = .next t) : ExecDid s (.rxChunk bs) t := by
  cases bs with
  | nil =>
    cases h
    exact .emptyChunk
  | cons b bs => exact .offered _ (b :: bs) t h

/-- The inversion of `exec`. -/
theorem exec_did {i : Instr} (h : exec i s = .next t) : ExecDid s i t := by
  cases i
  case gps | battery | rpm | temp | link | channels | generic | rxByte => exact .offered _ _ t h
  case rxChunk => exact execRxChunk_did h
  case init => exact execInit_did h
  case sendBattery | sendGps => exact sendFrame_did _ h
  case sendRpm | sendTemp => exact sendPacked_did _ h
  case frameEncode => exact execFrameEncode_did _ h
  case reservedOp =>
    cases h
    exact .failed _ _ _ rfl
  case crcSum =>
    obtain ⟨c, -, h⟩ := withValue_next h
    cases h
    exact .gave _ _
  case tick => cases h; exact .ticked
  case dispatch => cases h; exact .dispatched _ _ _
  case stUpdateCh => cases h; exact .storedChannels _
  case stUpdateLs => cases h; exact .storedLinkStats _
  case fsFeed => cases h; exact .fed
  case fsExpire => cases h; exact .expired
  all_goals
    cases h
    exact .gave _ _

/-- What a step that goes on ran: a hardware reset, a step of the receive agent, which it also takes with no entry to
come (R223), or an operation; `rest` are the entries left. -/
inductive StepDid (s t : State) : Prop where
  | reset (rest : List Entry) (hin : s.inbox = .reset :: rest) (h : t = hardwareReset { s with inbox := rest })
  | received (rest : List Entry) (hin : s.inbox = .receive :: rest ∨ s.inbox = [] ∧ rest = [])
      (h : takeByte Config.params { s with inbox := rest } = .next t)
  | executed (rest : List Entry) (port : Port) (bytes : List Byte) (i : Instr)
      (hin : s.inbox = .request port bytes :: rest) (hdec : decode Config.params port bytes = .ok i)
      (h : exec i { s with inbox := rest } = .next t)

/-- The inversion of `step`. -/
theorem step_did (h : step s = .next t) : StepDid s t := by
  unfold step at h
  split at h
  · rename_i hin
    exact .received [] (.inr ⟨hin, rfl⟩) (by rw [← hin]; exact h)
  · rename_i e rest hin
    cases e with
    | reset =>
      cases h
      exact .reset rest hin rfl
    | receive => exact .received rest (.inl hin) h
    | request port bytes =>
      simp only [runEntry] at h
      split at h
      · rename_i i hdec
        exact .executed rest port bytes i hin hdec h
      · cases h

/-! ## The invariants of every step

An update that leaves a field of the state alone leaves what an invariant says of it as it is: `{ h with … }` gives
the new facts only. -/

/-- A row of checked writes keeps the canonical form and the index range. -/
theorem memWriteFrom_form {name : ArrayName} {a b : Memory} {i : Nat} {vs : List Byte}
    (ha : a.wf = true ∧ a.below (arraySize name) = true) (h : memWriteFrom name a i vs = .ok b) :
    b.wf = true ∧ b.below (arraySize name) = true := by
  induction vs generalizing a i with
  | nil => cases h; exact ha
  | cons v vs ih =>
    simp only [memWriteFrom] at h
    split at h
    · cases h
    · rename_i a' hw
      obtain ⟨hi, rfl⟩ := memWrite_ok.mp hw
      exact ih ⟨Memory.write_wf ha.1 i v, Memory.write_below ha.2 hi v⟩ h

/-- A write to `RXBUF` inside its range keeps its form. -/
theorem EngineInv.rxbuf_write_form (h : EngineInv s) {i : Nat} (hi : i < 64) (b : Byte) :
    (s.rxbuf.write i b).wf = true ∧ (s.rxbuf.write i b).below (arraySize .rxbuf) = true :=
  ⟨Memory.write_wf h.rxbufForm.1 i b, Memory.write_below h.rxbufForm.2 hi b⟩

theorem raise_inv (e : Event) (h : EngineInv s) : EngineInv (raise e s) := { h with }

theorem emitEvent_inv (e : Event) (h : EngineInv s) : EngineInv (emitEvent e s) := { h with }

theorem give_inv (r : Result) (h : EngineInv s) : EngineInv (give r s) := { h with }

theorem txWrite_inv (bs : List Byte) (h : EngineInv s) : EngineInv (txWrite bs s) := { h with }

theorem keepAtSource_inv (bs : List Byte) (h : EngineInv s) : EngineInv (keepAtSource bs s) := { h with }

theorem setSource_inv (bs : List Byte) (h : EngineInv s) : EngineInv (setSource bs s) := { h with }

theorem updateChannels_inv (v : Vector (BitVec 11) 16) (h : EngineInv s) : EngineInv (updateChannels v s) := { h with }

theorem updateLinkStats_inv (ls : Vector Byte 10) (h : EngineInv s) : EngineInv (updateLinkStats ls s) := { h with }

theorem setInbox_inv (es : List Entry) (h : EngineInv s) : EngineInv { s with inbox := es } := { h with }

theorem setTxbuf_inv {buf : Memory} (h : EngineInv s) (hb : buf.wf = true ∧ buf.below (arraySize .txbuf) = true) :
    EngineInv (setTxbuf buf s) := { h with txbufForm := hb }

/-- R216: the window is at least one tick long (log 2). -/
theorem feedWatchdog_inv (h : EngineInv s) : EngineInv (feedWatchdog Config.params s) :=
  { h with
    armed := fun _ => ⟨(by decide : 1 ≤ Config.params.timeoutTicks), Nat.le_refl _, rfl⟩
    disarmed := nofun }

theorem expireWatchdog_inv (h : EngineInv s) : EngineInv (expireWatchdog s) :=
  { h with
    armed := nofun
    disarmed := fun _ => rfl }

theorem tickWatchdog_inv (h : EngineInv s) : EngineInv (tickWatchdog s) := by
  rcases tickWatchdog_cases s with ⟨-, e⟩ | ⟨-, -, e⟩ | ⟨ha, hc, e⟩
  · rw [e]
    exact h
  · rw [e]
    exact expireWatchdog_inv h
  · rw [e]
    obtain ⟨h1, h2, hfs⟩ := h.armed ha
    exact { h with armed := fun _ => ⟨(by omega : 1 ≤ s.wdtCnt - 1), (by omega : s.wdtCnt - 1 ≤ _), hfs⟩ }

/-- Back in `SEEK_SYNC` the sequencer holds nothing. -/
theorem seekAgain_inv (h : EngineInv s) : EngineInv (seekAgain s) :=
  { h with
    seeking := ⟨fun _ => rfl, fun _ => rfl⟩
    lengthNext := ⟨nofun, nofun⟩
    syncHeld := fun hs => absurd rfl hs
    bodyBounds := nofun
    heldWritten := fun k hk => absurd hk (Nat.not_lt_zero k) }

theorem holdSync_inv {b : Byte} (hb : isDest Config.params b = true) (h : EngineInv s) : EngineInv (holdSync b s) :=
  { h with
    rxbufForm := h.rxbuf_write_form (by decide) b
    seeking := ⟨nofun, nofun⟩
    lengthNext := ⟨fun _ => rfl, fun _ => rfl⟩
    syncHeld := fun _ => by simpa [holdSync] using hb
    bodyBounds := nofun
    heldWritten := fun k (hk : k < 1) => by
      obtain rfl : k = 0 := by omega
      simp [holdSync] }

/-- R103: the destination byte is held already, and the length byte stands after it. -/
theorem holdLength_inv {b : Byte} (hs : s.rxs = .readLength) (hlo : 2 ≤ b.toNat) (hhi : b.toNat ≤ 62)
    (h : EngineInv s) : EngineInv (holdLength b s) := by
  have hsync := h.syncHeld (by simp [hs])
  have hzero : (s.rxbuf.write 1 b).read 0 = s.rxbuf.read 0 := Memory.read_write_other _ (by decide) b
  exact
    { h with
      rxbufForm := h.rxbuf_write_form (by decide) b
      seeking := ⟨nofun, nofun⟩
      lengthNext := ⟨nofun, nofun⟩
      syncHeld := fun _ => by simpa [holdLength, hzero] using hsync
      bodyBounds := fun _ => ⟨hlo, hhi, Nat.le_refl 2, (by omega : 2 ≤ b.toNat + 1), Memory.read_write_same _ 1 b⟩
      heldWritten := fun k (hk : k < 2) => by
        obtain rfl | rfl : k = 0 ∨ k = 1 := by omega
        · have hheld := h.heldWritten 0 (by rw [h.lengthNext.mp hs]; decide)
          simpa [holdLength, hzero] using hheld
        · simp [holdLength] }

/-- R104: a body byte is stored behind the two bytes the invariant speaks of. -/
theorem storeBody_inv {b : Byte} (hs : s.rxs = .awaitBody) (hn : s.rxn < 64) (h : EngineInv s) :
    EngineInv (setRxbuf (s.rxbuf.write s.rxn b) s) := by
  obtain ⟨hlo, hhi, hmin, hmax, hlen⟩ := h.bodyBounds hs
  have hother : ∀ k, k < s.rxn → (s.rxbuf.write s.rxn b).read k = s.rxbuf.read k :=
    fun k hk => Memory.read_write_other _ (by omega) b
  exact
    { h with
      rxbufForm := h.rxbuf_write_form hn b
      syncHeld := fun hs => by simpa [hother 0 (by omega)] using h.syncHeld hs
      bodyBounds := fun _ => ⟨hlo, hhi, hmin, hmax, (hother 1 (by omega)).trans hlen⟩
      heldWritten := fun k hk => by simpa [hother k hk] using h.heldWritten k hk }

/-- R104: `RXN` goes on over a byte that has been stored, as long as the frame is not whole. -/
theorem advanceBody_inv (hs : s.rxs = .awaitBody) (hlast : s.rxn + 1 ≠ s.rxlen.toNat + 2)
    (hstored : (s.rxbuf.read s.rxn).isSome = true) (h : EngineInv s) : EngineInv (setRxn (s.rxn + 1) s) := by
  obtain ⟨hlo, hhi, hmin, hmax, hlen⟩ := h.bodyBounds hs
  exact
    { h with
      seeking := ⟨fun hseek => absurd (hs.symm.trans hseek) nofun, nofun⟩
      lengthNext := ⟨fun hread => absurd (hs.symm.trans hread) nofun, fun (hn : s.rxn + 1 = 1) => by omega⟩
      bodyBounds := fun _ => ⟨hlo, hhi, (by omega : 2 ≤ s.rxn + 1), (by omega : s.rxn + 1 ≤ s.rxlen.toNat + 1), hlen⟩
      heldWritten := fun k (hk : k < s.rxn + 1) => by
        obtain hk | rfl : k < s.rxn ∨ k = s.rxn := by omega
        · exact h.heldWritten k hk
        · exact hstored }

theorem DispatchDid.inv {dest : Byte} (hd : DispatchDid Config.params dest s t) (h : EngineInv s) : EngineInv t := by
  cases hd with
  | channels v e => exact e ▸ emitEvent_inv _ (feedWatchdog_inv (updateChannels_inv v h))
  | link ls e => exact e ▸ emitEvent_inv _ (updateLinkStats_inv ls h)
  | generic type p e => exact e ▸ emitEvent_inv _ (raise_inv _ h)
  | event ev _ e => exact e ▸ raise_inv ev h

theorem rxStep_inv {b : Byte} (h : EngineInv s) (hstep : rxStep Config.params b s = .next t) : EngineInv t := by
  rcases rxStep_next hstep with ⟨-, hd, rfl⟩ | ⟨-, -, rfl⟩ | ⟨hs, hlo, hhi, rfl⟩ | ⟨-, -, hd, rfl⟩ | ⟨-, -, -, rfl⟩ |
    ⟨hs, hn, hlast, rfl⟩ | ⟨hs, hn, -, hemit⟩
  · exact holdSync_inv hd h
  · exact raise_inv _ h
  · exact holdLength_inv hs hlo hhi h
  · exact holdSync_inv hd (raise_inv _ h)
  · exact seekAgain_inv (raise_inv _ h)
  · exact advanceBody_inv (s := setRxbuf (s.rxbuf.write s.rxn b) s) hs hlast (by simp) (storeBody_inv hs hn h)
  · obtain ⟨dest, type, payload, received, computed, -, -, -, -, -, rfl⟩ := emitFrame_next hemit
    exact seekAgain_inv ((judge_did _ dest type payload computed received _).inv (storeBody_inv hs hn h))

theorem takeByte_inv (h : EngineInv s) (hstep : takeByte Config.params s = .next t) : EngineInv t := by
  rcases takeByte_next hstep with ⟨-, rfl⟩ | ⟨-, b, rest, -, hrx⟩
  · exact h
  · exact rxStep_inv (setSource_inv rest h) hrx

theorem setUp_inv (poly : Byte) (v : Bool) (h : EngineInv s) : EngineInv (setUp poly v s) :=
  { seekAgain_inv h with
    tableForm := crcTable_form poly
    armed := nofun
    disarmed := fun _ => rfl
    tableBuilt := fun _ => rfl }

theorem exec_inv {i : Instr} (h : EngineInv s) (hexec : exec i s = .next t) : EngineInv t := by
  cases exec_did hexec with
  | gave i r => exact give_inv r h
  | failed i code e he => exact give_inv _ (raise_inv e h)
  | sent i f out buf _ hw _ => exact give_inv _ (txWrite_inv out (setTxbuf_inv h (memWriteFrom_form h.txbufForm hw)))
  | offered i bs t ht => exact takeByte_inv (keepAtSource_inv bs h) ht
  | emptyChunk => exact h
  | initialised poly v hi => exact give_inv _ (setUp_inv poly v h)
  | ticked => exact tickWatchdog_inv h
  | dispatched dest type p => exact (dispatch_did _ dest type p s).inv h
  | storedChannels v => exact updateChannels_inv v h
  | storedLinkStats ls => exact updateLinkStats_inv ls h
  | fed => exact feedWatchdog_inv h
  | expired => exact expireWatchdog_inv h

theorem engineInv_reset : EngineInv State.reset where
  tableForm := ⟨rfl, rfl⟩
  rxbufForm := ⟨rfl, rfl⟩
  txbufForm := ⟨rfl, rfl⟩
  seeking := ⟨fun _ => rfl, fun _ => rfl⟩
  lengthNext := ⟨nofun, nofun⟩
  syncHeld hs := absurd rfl hs
  bodyBounds := nofun
  heldWritten k hk := absurd hk (Nat.not_lt_zero k)
  armed := nofun
  disarmed _ := rfl
  tableBuilt := nofun

/-- Hardware reset keeps only the streams and what the environment holds, of which the invariants say nothing. -/
theorem hardwareReset_inv (s : State) : EngineInv (hardwareReset s) := { engineInv_reset with }

/-- Settles O7: each way a step changes the state keeps the invariants. -/
theorem everyStepKeepsTheInvariants : Obligations.EveryStepKeepsTheInvariants := by
  intro s t h hstep
  cases step_did hstep with
  | reset rest _ e => exact e ▸ hardwareReset_inv _
  | received rest _ ht => exact takeByte_inv (setInbox_inv rest h) ht
  | executed rest port bytes i _ _ ht => exact exec_inv (setInbox_inv rest h) ht

/-! ## The engine before `INIT` -/

/-- Nothing is asked of an initialised engine. -/
theorem QuietBeforeInit.of_inited (h : s.inited = true) : QuietBeforeInit s where
  sequencer h0 := nomatch h.symm.trans h0
  registers h0 := nomatch h.symm.trans h0
  monitor h0 := nomatch h.symm.trans h0

theorem quietBeforeInit_reset : QuietBeforeInit State.reset :=
  ⟨fun _ => ⟨rfl, rfl⟩, fun _ => ⟨rfl, rfl⟩, fun _ => ⟨rfl, rfl⟩⟩

theorem hardwareReset_quiet (s : State) : QuietBeforeInit (hardwareReset s) := { quietBeforeInit_reset with }

theorem takeByte_quiet (h : QuietBeforeInit s) (hstep : takeByte Config.params s = .next t) : QuietBeforeInit t := by
  rcases takeByte_next hstep with ⟨-, rfl⟩ | ⟨hi, b, rest, -, hrx⟩
  · exact h
  · exact .of_inited ((rxStep_outside hrx).inited.trans hi)

/-- Before `INIT` the watchdog is not armed, so that `TICK` finds nothing to count. -/
theorem tickWatchdog_quiet (h : QuietBeforeInit s) : QuietBeforeInit (tickWatchdog s) := by
  cases hi : s.inited with
  | false => simpa [tickWatchdog, (h.monitor hi).2] using h
  | true =>
    refine .of_inited ?_
    rcases tickWatchdog_cases s with ⟨-, e⟩ | ⟨-, -, e⟩ | ⟨-, -, e⟩ <;> rw [e] <;> exact hi

theorem exec_quiet {i : Instr} (hagent : agentStep i = true) (h : QuietBeforeInit s) (hexec : exec i s = .next t) :
    QuietBeforeInit t := by
  cases exec_did hexec with
  | gave i r => exact { h with }
  | failed i code e he => exact { h with }
  | sent i f out buf _ hw _ => exact { h with }
  | offered i bs t ht => exact takeByte_quiet (s := keepAtSource bs s) { h with } ht
  | emptyChunk => exact h
  | initialised poly v hi => exact .of_inited rfl
  | ticked => exact tickWatchdog_quiet h
  | dispatched | storedChannels | storedLinkStats | fed | expired => exact nomatch hagent

/-- The operation that comes next is a step of an agent when `agentNext` says so. -/
theorem agentStep_of_agentNext {port : Port} {bytes : List Byte} {rest : List Entry} {i : Instr}
    (hin : s.inbox = .request port bytes :: rest) (hdec : decode Config.params port bytes = .ok i)
    (h : agentNext s = true) : agentStep i = true := by
  simpa [agentNext, hin, hdec] using h

/-- Settles O8: before `INIT` no agent's step touches the sequencer, the snapshot or the monitor. -/
theorem agentStepsKeepQuietBeforeInit : Obligations.AgentStepsKeepQuietBeforeInit := by
  intro s t h hnext hstep
  cases step_did hstep with
  | reset rest _ e => exact e ▸ hardwareReset_quiet _
  | received rest _ ht => exact takeByte_quiet (s := { s with inbox := rest }) { h with } ht
  | executed rest port bytes i hin hdec ht =>
    exact exec_quiet (s := { s with inbox := rest }) (agentStep_of_agentNext hin hdec hnext) { h with } ht

/-! ## The output streams -/

/-- The output streams and the results of one state extend those of another. -/
structure StreamsExtend (s t : State) : Prop where
  tx : s.tx <+: t.tx
  ev : s.ev <+: t.ev
  res : s.res <+: t.res

theorem StreamsExtend.refl (s : State) : StreamsExtend s s :=
  ⟨List.prefix_refl _, List.prefix_refl _, List.prefix_refl _⟩

theorem StreamsExtend.trans {u : State} (h : StreamsExtend s t) (k : StreamsExtend t u) : StreamsExtend s u :=
  ⟨h.tx.trans k.tx, h.ev.trans k.ev, h.res.trans k.res⟩

theorem raise_extends (e : Event) (s : State) : StreamsExtend s (raise e s) :=
  { StreamsExtend.refl s with ev := List.prefix_append _ _ }

theorem give_extends (r : Result) (s : State) : StreamsExtend s (give r s) :=
  { StreamsExtend.refl s with res := List.prefix_append _ _ }

theorem txWrite_extends (bs : List Byte) (s : State) : StreamsExtend s (txWrite bs s) :=
  { StreamsExtend.refl s with tx := List.prefix_append _ _ }

theorem tickWatchdog_extends (s : State) : StreamsExtend s (tickWatchdog s) := by
  rcases tickWatchdog_cases s with ⟨-, e⟩ | ⟨-, -, e⟩ | ⟨-, -, e⟩ <;> rw [e]
  · exact .refl s
  · exact { raise_extends .failsafe s with }
  · exact { StreamsExtend.refl s with }

theorem DispatchDid.streams {P : Params} {dest : Byte} (h : DispatchDid P dest s t) : StreamsExtend s t := by
  cases h with
  | channels v e => exact e ▸ { raise_extends (.decChannels dest v) s with }
  | link ls e => exact e ▸ { raise_extends (.decLink dest ls) s with }
  | generic type p e => exact e ▸ (raise_extends _ s).trans (raise_extends _ _)
  | event ev _ e => exact e ▸ raise_extends ev s

theorem rxStep_extends {P : Params} {b : Byte} (h : rxStep P b s = .next t) : StreamsExtend s t := by
  rcases rxStep_next h with ⟨-, -, rfl⟩ | ⟨-, -, rfl⟩ | ⟨-, -, -, rfl⟩ | ⟨-, -, -, rfl⟩ | ⟨-, -, -, rfl⟩ |
    ⟨-, -, -, rfl⟩ | ⟨-, -, -, hemit⟩
  · exact { StreamsExtend.refl s with }
  · exact raise_extends _ s
  · exact { StreamsExtend.refl s with }
  · exact { raise_extends (.errBadLength b) s with }
  · exact { raise_extends (.errBadLength b) s with }
  · exact { StreamsExtend.refl s with }
  · obtain ⟨dest, type, payload, received, computed, -, -, -, -, -, rfl⟩ := emitFrame_next hemit
    exact { (judge_did P dest type payload computed received (setRxbuf (s.rxbuf.write s.rxn b) s)).streams with }

theorem takeByte_extends {P : Params} (h : takeByte P s = .next t) : StreamsExtend s t := by
  rcases takeByte_next h with ⟨-, rfl⟩ | ⟨-, b, rest, -, hrx⟩
  · exact .refl t
  · exact { rxStep_extends hrx with }

theorem exec_extends {i : Instr} (h : exec i s = .next t) : StreamsExtend s t := by
  cases exec_did h with
  | gave i r => exact give_extends r s
  | failed i code e he => exact (raise_extends e s).trans (give_extends _ _)
  | sent i f out buf _ hw _ => exact { (txWrite_extends out s).trans (give_extends .ok _) with }
  | offered i bs t ht => exact { takeByte_extends ht with }
  | initialised poly v hi => exact { give_extends .ok s with }
  | ticked => exact tickWatchdog_extends s
  | dispatched dest type p => exact (dispatch_did _ dest type p s).streams
  | expired => exact { raise_extends .failsafe s with }
  | emptyChunk | storedChannels | storedLinkStats | fed => exact { StreamsExtend.refl s with }

/-- Settles O11: every way an operation changes the state appends to the streams or leaves them alone. -/
theorem outputStreamsOnlyGrow : Obligations.OutputStreamsOnlyGrow := by
  intro i s t h
  obtain ⟨htx, hev, hres⟩ := exec_extends h
  exact ⟨htx, hev, hres⟩

/-! ## The registers a host reads -/

/-- A step that leaves `CH`, `LS` and `FS` alone and appends no accepted channels or link-statistics frame. -/
theorem followsFrames_of_unchanged {setUp : Prop} (new : List Event) (hev : t.ev = s.ev ++ new) (hch : t.ch = s.ch)
    (hls : t.ls = s.ls) (hfs : t.fs = s.fs)
    (hnew : lastChannels s.ch new = s.ch ∧ lastLink s.ls new = s.ls ∧ feeds new = false) :
    FollowsFrames setUp s t := by
  obtain ⟨hnch, hnls, hnfeeds⟩ := hnew
  refine ⟨new, hev, hch.trans hnch.symm, hls.trans hnls.symm, fun h1 h0 => ?_, fun hf => ?_, fun h0 h1 => ?_⟩
  · exact absurd (hfs.trans h1) (by simp [h0])
  · exact nomatch hnfeeds.symm.trans hf
  · exact absurd (hfs.trans h0) (by simp [h1])

/-- A step that appends no event and leaves the registers alone. -/
theorem followsFrames_of_noEvent {setUp : Prop} (hev : t.ev = s.ev) (hch : t.ch = s.ch) (hls : t.ls = s.ls)
    (hfs : t.fs = s.fs) : FollowsFrames setUp s t :=
  followsFrames_of_unchanged [] (by simp [hev]) hch hls hfs ⟨rfl, rfl, rfl⟩

theorem FollowsFrames.mono {p q : Prop} (hpq : p → q) (h : FollowsFrames p s t) : FollowsFrames q s t := by
  obtain ⟨new, hev, hch, hls, hfall, hfed, hrise⟩ := h
  exact ⟨new, hev, hch, hls, hfall, hfed, fun h0 h1 => (hrise h0 h1).imp id hpq⟩

/-- An error event carries no record. -/
theorem error_carries_no_record {e : Event} (he : isErrorEvent e = true) (s : State) :
    lastChannels s.ch [e] = s.ch ∧ lastLink s.ls [e] = s.ls ∧ feeds [e] = false := by
  cases e
  case decChannels | decLink => exact nomatch he
  all_goals exact ⟨rfl, rfl, rfl⟩

theorem raise_follows {setUp : Prop} {e : Event} (he : isErrorEvent e = true) (s : State) :
    FollowsFrames setUp s (raise e s) :=
  followsFrames_of_unchanged [e] rfl rfl rfl rfl (error_carries_no_record he s)

/-- Expiry is the one way in which `FS` rises in a step of the timer (R217). -/
theorem tickWatchdog_follows {setUp : Prop} (s : State) : FollowsFrames setUp s (tickWatchdog s) := by
  rcases tickWatchdog_cases s with ⟨-, e⟩ | ⟨-, -, e⟩ | ⟨-, -, e⟩ <;> rw [e]
  · exact followsFrames_of_noEvent rfl rfl rfl rfl
  · exact ⟨[.failsafe], rfl, rfl, rfl, fun _ => nofun, nofun, fun _ _ => .inl (by simp)⟩
  · exact followsFrames_of_noEvent rfl rfl rfl rfl

theorem DispatchDid.follows {P : Params} {dest : Byte} (h : DispatchDid P dest s t) : FollowsFrames False s t := by
  cases h with
  | channels v e =>
    subst e
    exact ⟨[.decChannels dest v], rfl, rfl, rfl, fun _ _ => rfl, fun _ => rfl, fun _ => nofun⟩
  | link ls e =>
    subst e
    refine ⟨[.decLink dest ls], rfl, rfl, rfl, fun h1 h0 => ?_, nofun, fun h0 h1 => ?_⟩
    · exact nomatch h1.symm.trans h0
    · exact nomatch h0.symm.trans h1
  | generic type p e =>
    subst e
    exact followsFrames_of_unchanged [.errUnsupportedType type, .generic dest type p] (by simp [acceptGeneric])
      rfl rfl rfl ⟨rfl, rfl, rfl⟩
  | event ev hev e =>
    subst e
    exact followsFrames_of_unchanged [ev] rfl rfl rfl rfl hev

theorem rxStep_follows {P : Params} {b : Byte} (h : rxStep P b s = .next t) : FollowsFrames False s t := by
  rcases rxStep_next h with ⟨-, -, rfl⟩ | ⟨-, -, rfl⟩ | ⟨-, -, -, rfl⟩ | ⟨-, -, -, rfl⟩ | ⟨-, -, -, rfl⟩ |
    ⟨-, -, -, rfl⟩ | ⟨-, -, -, hemit⟩
  · exact followsFrames_of_noEvent rfl rfl rfl rfl
  · exact raise_follows rfl s
  · exact followsFrames_of_noEvent rfl rfl rfl rfl
  · exact raise_follows (e := .errBadLength b) rfl s
  · exact raise_follows (e := .errBadLength b) rfl s
  · exact followsFrames_of_noEvent rfl rfl rfl rfl
  · obtain ⟨dest, type, payload, received, computed, -, -, -, -, -, rfl⟩ := emitFrame_next hemit
    exact (judge_did P dest type payload computed received (setRxbuf (s.rxbuf.write s.rxn b) s)).follows

theorem takeByte_follows {P : Params} (h : takeByte P s = .next t) : FollowsFrames False s t := by
  rcases takeByte_next h with ⟨-, rfl⟩ | ⟨-, b, rest, -, hrx⟩
  · exact followsFrames_of_noEvent rfl rfl rfl rfl
  · exact rxStep_follows (s := setSource rest s) hrx

/-- The first `INIT` may raise `FS`, appends no event and leaves `CH` and `LS` alone (R186). -/
theorem setUp_follows {p : Prop} (hp : p) (poly : Byte) (v : Bool) (s : State) :
    FollowsFrames p s (setUp poly v s) :=
  ⟨[], (List.append_nil _).symm, rfl, rfl, fun _ => nofun, nofun, fun _ _ => .inr hp⟩

theorem exec_follows {i : Instr} (hagent : agentStep i = true) (h : exec i s = .next t) :
    FollowsFrames (s.inited = false ∧ ∃ poly v, i = .init poly v) s t := by
  cases exec_did h with
  | gave i r => exact followsFrames_of_noEvent rfl rfl rfl rfl
  | failed i code e he => exact raise_follows he s
  | sent i f out buf _ hw _ => exact followsFrames_of_noEvent rfl rfl rfl rfl
  | offered i bs t ht => exact (takeByte_follows ht).mono False.elim
  | emptyChunk => exact followsFrames_of_noEvent rfl rfl rfl rfl
  | initialised poly v hi => exact setUp_follows ⟨hi, poly, v, rfl⟩ poly v s
  | ticked => exact tickWatchdog_follows s
  | dispatched | storedChannels | storedLinkStats | fed | expired => exact nomatch hagent

/-- Settles O12: the events a step appends account for what it did to `CH`, `LS` and `FS`. -/
theorem registersFollowTheAcceptedFrames : Obligations.RegistersFollowTheAcceptedFrames :=
  fun _ _ => ⟨fun _ hagent h => exec_follows hagent h, takeByte_follows⟩

/-- Settles O6: at reset the sequencer seeks, the watchdog is disarmed and no array element is written. -/
theorem resetMeetsTheInvariants : Obligations.ResetMeetsTheInvariants := ⟨engineInv_reset, quietBeforeInit_reset⟩

end Sys2Proof.Machine

/-! PROOFS. Memory (20_memory.md): the entry a step takes, what a send leaves in `TXBUF`, and what a received frame leaves
in `RXBUF`. -/

namespace Sys2Proof.Machine

variable {s t u : State}

/-! ## The entry a step takes -/

theorem step_of_cons {e : Entry} {rest : List Entry} (h : s.inbox = e :: rest) :
    step s = runEntry e { s with inbox := rest } := by
  simp [step, h]

theorem step_of_nil (h : s.inbox = []) : step s = takeByte Config.params s := by
  simp [step, h]

theorem runEntry_of_decoded {port : Port} {bytes : List Byte} {i : Instr}
    (h : decode Config.params port bytes = .ok i) (s : State) : runEntry (.request port bytes) s = exec i s := by
  simp [runEntry, h]

theorem runEntry_of_undecodable {port : Port} {bytes : List Byte} {e : DecodeError}
    (h : decode Config.params port bytes = .error e) (s : State) :
    runEntry (.request port bytes) s = .refused (.undecodable e) := by
  simp [runEntry, h]

/-- Settles O4: one clause for each kind of entry, and two for an empty list of them. -/
theorem stepRunsTheDecodedInstr : Obligations.StepRunsTheDecodedInstr := by
  intro s rest
  refine ⟨fun port bytes i hin hdec => ?_, fun port bytes e hin hdec => ?_, step_of_cons, step_of_cons, step_of_nil,
    fun hin hwait => ?_⟩
  · rw [step_of_cons hin, runEntry_of_decoded hdec]
  · rw [step_of_cons hin, runEntry_of_undecodable hdec]
  · rw [step_of_nil hin, takeByte_waits hwait]

/-! ## A send and `TXBUF` -/

/-- A row of checked writes completes just when it ends inside the array. -/
theorem memWriteFrom_ok {name : ArrayName} {a b : Memory} {i : Nat} {vs : List Byte} (hi : i ≤ arraySize name) :
    memWriteFrom name a i vs = .ok b ↔ i + vs.length ≤ arraySize name ∧ b = a.writeFrom i vs := by
  induction vs generalizing a i with
  | nil => simp [memWriteFrom, Memory.writeFrom, hi, eq_comm]
  | cons v vs ih =>
    by_cases hlt : i < arraySize name
    · have hlen : i + (v :: vs).length = i + 1 + vs.length := by rw [List.length_cons]; omega
      rw [hlen, memWriteFrom, memWrite, if_pos hlt]
      exact ih hlt
    · simp only [memWriteFrom, memWrite, if_neg hlt, List.length_cons]
      exact ⟨nofun, fun h => by omega⟩

/-- An operation appends to `TX` only as a send that wrote a frame, and the frame on `TX` is the one in `TXBUF`. -/
theorem ExecDid.tx_same_or_sent {i : Instr} (h : ExecDid s i t) :
    t.tx = s.tx ∨ ∃ f, t = give .ok (txWrite f (setTxbuf (s.txbuf.writeFrom 0 f) s)) := by
  cases h with
  | sent i f out buf _ hw hr =>
    obtain ⟨hsize, rfl⟩ := (memWriteFrom_ok (Nat.zero_le _)).mp hw
    cases (memReadFrom_writeFrom _ _ _ _ hsize).symm.trans hr
    exact .inr ⟨f, rfl⟩
  | offered i bs t ht => exact .inl (takeByte_outside ht).1.tx
  | ticked =>
    left
    rcases tickWatchdog_cases s with ⟨-, e⟩ | ⟨-, -, e⟩ | ⟨-, -, e⟩ <;> simp [e]
  | dispatched dest type p => exact .inl (dispatch_did _ dest type p s).outside.tx
  | gave | failed | emptyChunk | initialised | storedChannels | storedLinkStats | fed | expired => exact .inl rfl

/-- Settles O60: bytes on `TX` are those of a frame that was written to `TXBUF` from element 0 on. -/
theorem sendFillsTxbuf : Obligations.SendFillsTxbuf := by
  intro s t i f _ hexec htx hne
  rcases (exec_did hexec).tx_same_or_sent with hsame | ⟨g, rfl⟩
  · exact absurd (List.self_eq_append_right.mp (hsame.symm.trans htx)) hne
  · obtain rfl : g = f := List.append_cancel_left htx
    refine ⟨fun k hk => ?_, fun k hk => ?_, rfl, rfl, rfl⟩
    · simpa using Memory.read_writeFrom_inside s.txbuf 0 g hk
    · exact Memory.read_writeFrom_outside s.txbuf 0 g (.inr (by omega))

/-! ## The checksum through the table -/

theorem crcBuild_getElem? (poly : Byte) {k : Nat} (hk : k < 256) :
    (crcBuild poly).toList[k]? = some (crcEntry poly (BitVec.ofNat 8 k)) := by
  simp [crcBuild, vecOf, hk]

theorem memRead_crcTable (poly c : Byte) : memRead .table (crcTable poly) c.toNat = .ok (crcEntry poly c) := by
  have hc : c.toNat < 256 := c.isLt
  exact memRead_ok.mpr ⟨hc, by simp [crcTable, crcBuild_getElem? poly hc]⟩

/-- R93 (a) from any running value: the fold through the table of a polynomial is the bitwise one. -/
theorem crcFold_crcTable (poly c : Byte) (bytes : List Byte) :
    crcFold (crcTable poly) c bytes = .ok (bytes.foldl (fun c b => crcEntry poly (c ^^^ b)) c) := by
  induction bytes generalizing c with
  | nil => rfl
  | cons b bs ih => simp only [crcFold, memRead_crcTable, ih, List.foldl_cons]

theorem crcSum_crcTable (poly : Byte) (bytes : List Byte) :
    crcSum (crcTable poly) bytes = .ok (crcBitwise poly bytes) := crcFold_crcTable poly 0 bytes

/-! ## The sequencer over a whole frame -/

section
variable {P : Params} {b : Byte}

theorem isDest_dval (P : Params) (d : Dest) : isDest P (dval P d) = true := by
  cases d <;> simp [isDest, dval]

theorem rxStep_holdSync (hs : s.rxs = .seekSync) (hb : isDest P b = true) : rxStep P b s = .next (holdSync b s) := by
  simp [rxStep, hs, rxSeek, hb]

theorem rxStep_holdLength (hs : s.rxs = .readLength) (hlo : 2 ≤ b.toNat) (hhi : b.toNat ≤ 62) :
    rxStep P b s = .next (holdLength b s) := by
  simp [rxStep, hs, rxLength, hlo, hhi]

/-- R104 before the last body byte. -/
theorem rxStep_storeBody (hs : s.rxs = .awaitBody) (hn : s.rxn < 64) (hmore : s.rxn + 1 ≠ s.rxlen.toNat + 2) :
    rxStep P b s = .next (setRxn (s.rxn + 1) (setRxbuf (s.rxbuf.write s.rxn b) s)) := by
  have hw : memWrite .rxbuf s.rxbuf s.rxn b = .ok (s.rxbuf.write s.rxn b) := memWrite_ok.mpr ⟨hn, rfl⟩
  simp only [rxStep, hs, rxBody, hw, withValue, if_neg hmore]

/-- R104 on the last body byte. -/
theorem rxStep_lastBody (hs : s.rxs = .awaitBody) (hn : s.rxn < 64) (hlast : s.rxn + 1 = s.rxlen.toNat + 2) :
    rxStep P b s = emitFrame P (setRxbuf (s.rxbuf.write s.rxn b) s) := by
  have hw : memWrite .rxbuf s.rxbuf s.rxn b = .ok (s.rxbuf.write s.rxn b) := memWrite_ok.mpr ⟨hn, rfl⟩
  simp only [rxStep, hs, rxBody, hw, withValue, if_pos hlast]

theorem receive_succ {n : Nat} (h : takeByte P s = .next t) : receive P (n + 1) s = receive P n t := by
  simp [receive, h]

theorem receive_one (P : Params) (s : State) : receive P 1 s = takeByte P s := by
  cases h : takeByte P s <;> simp [receive, h]

theorem receive_add_of_next {m n : Nat} (h : receive P m s = .next t) : receive P (m + n) s = receive P n t := by
  rw [receive_add, h]

end

section
variable {P : Params}

/-- The bytes `bs` of an unfinished body have been taken and stored, and `rest` still waits. -/
def bodyStored (bs rest : List Byte) (s : State) : State :=
  { s with rxbuf := s.rxbuf.writeFrom s.rxn bs, rxn := s.rxn + bs.length, src := rest }

/-- R104 over a row of body bytes that does not end the frame. -/
theorem receive_body {bs rest : List Byte} (hi : s.inited = true) (hs : s.rxs = .awaitBody) (hlen : s.rxlen.toNat ≤ 62)
    (hsrc : s.src = bs ++ rest) (hmore : s.rxn + bs.length < s.rxlen.toNat + 2) :
    receive P bs.length s = .next (bodyStored bs rest s) := by
  induction bs generalizing s with
  | nil =>
    obtain rfl : s.src = rest := hsrc
    rfl
  | cons b bs ih =>
    rw [List.length_cons] at hmore ⊢
    have htake : takeByte P s = .next (bodyStored [b] (bs ++ rest) s) :=
      (takeByte_cons hi hsrc).trans (rxStep_storeBody (s := setSource (bs ++ rest) s) hs
        (by rw [setSource_rxn]; omega) (by rw [setSource_rxn, setSource_rxlen]; omega))
    rw [receive_succ htake, ih (s := bodyStored [b] (bs ++ rest) s) hi hs hlen rfl
      (by simp only [bodyStored, List.length_singleton]; omega)]
    simp [bodyStored, Memory.writeFrom, Nat.add_assoc, Nat.add_comm 1]

theorem length_frameBytes (P : Params) (d : Dest) (type : Byte) (p : List Byte) (c : Byte) :
    (frameBytes P d type p c).length = p.length + 4 := by
  simp [frameBytes]

/-- R105: a frame that stands whole in `RXBUF` is read out of it as it is, judged, and the sequencer seeks again. -/
theorem emitFrame_of_frame {d : Dest} {type c computed : Byte} {p : List Byte} (hp : p.length ≤ 60)
    (hlen : s.rxlen.toNat = p.length + 2)
    (hbuf : ∀ k, k < p.length + 4 → s.rxbuf.read k = (frameBytes P d type p c)[k]?)
    (hcrc : crcSum s.table (type :: p) = .ok computed) :
    emitFrame P s = .next (seekAgain (judge P (dval P d) type p computed c s)) := by
  have hsize : arraySize .rxbuf = 64 := rfl
  have hdest : memRead .rxbuf s.rxbuf 0 = .ok (dval P d) := memRead_ok.mpr ⟨by omega, hbuf 0 (by omega)⟩
  have htype : memRead .rxbuf s.rxbuf 2 = .ok type := memRead_ok.mpr ⟨by omega, hbuf 2 (by omega)⟩
  have hpayload : memReadFrom .rxbuf s.rxbuf 3 p.length = .ok p :=
    memReadFrom_ok _ _ _ _ (by omega) fun k hk => by
      rw [hbuf _ (by omega)]
      simp [frameBytes, Nat.add_comm 3, List.getElem?_append_left hk]
  have hreceived : memRead .rxbuf s.rxbuf (p.length + 3) = .ok c :=
    memRead_ok.mpr ⟨by omega, by rw [hbuf _ (by omega)]; simp [frameBytes]⟩
  simp [emitFrame, hlen, hdest, htype, hpayload, hreceived, hcrc, withValue]

/-! Nothing that a dispatched frame does reads or writes `RXS` or `RXN`. -/

theorem onValue_seekAgain {α : Type} {k : α → State → State} (hk : ∀ v s, k v (seekAgain s) = seekAgain (k v s))
    (r : Option α) (type : Byte) (n : Nat) (s : State) :
    onValue r type n k (seekAgain s) = seekAgain (onValue r type n k s) := by
  cases r with
  | none => rfl
  | some v => exact hk v s

theorem dispatch_seekAgain (P : Params) (dest type : Byte) (p : List Byte) (s : State) :
    dispatch P dest type p (seekAgain s) = seekAgain (dispatch P dest type p s) := by
  unfold dispatch
  split_ifs
  case neg => rfl
  all_goals exact onValue_seekAgain (fun _ _ => by rfl) ..

theorem judge_seekAgain (P : Params) (dest type : Byte) (p : List Byte) (c r : Byte) (s : State) :
    judge P dest type p c r (seekAgain s) = seekAgain (judge P dest type p c r s) := by
  simp only [judge, dispatch_seekAgain, apply_ite seekAgain]
  rfl

/-- A destination byte and an admitted length byte have been taken and stored, and `rest` still waits. -/
def headerHeld (dest len : Byte) (rest : List Byte) (s : State) : State :=
  { s with rxbuf := s.rxbuf.writeFrom 0 [dest, len], rxlen := len, rxn := 2, rxs := .awaitBody, src := rest }

/-- R102 and R103 over the first two bytes of a frame. -/
theorem receive_header {dest len : Byte} {rest : List Byte} (hi : s.inited = true) (hs : s.rxs = .seekSync)
    (hd : isDest P dest = true) (hlo : 2 ≤ len.toNat) (hhi : len.toNat ≤ 62) (hsrc : s.src = dest :: len :: rest) :
    receive P 2 s = .next (headerHeld dest len rest s) := by
  have hsync : takeByte P s = .next (holdSync dest (setSource (len :: rest) s)) :=
    (takeByte_cons hi hsrc).trans (rxStep_holdSync hs hd)
  have hlength : takeByte P (holdSync dest (setSource (len :: rest) s)) = .next (headerHeld dest len rest s) :=
    (takeByte_cons (by exact hi) rfl).trans (rxStep_holdLength rfl hlo hhi)
  rw [receive_succ hsync, receive_one, hlength]

theorem frameBytes_append (P : Params) (d : Dest) (type : Byte) (p : List Byte) (c : Byte) (rest : List Byte) :
    frameBytes P d type p c ++ rest =
      dval P d :: BitVec.ofNat 8 (p.length + 2) :: (type :: p ++ c :: rest) := by
  simp [frameBytes]

/-- The length byte of a frame does not wrap around (R61). -/
theorem toNat_lengthByte {p : List Byte} (hp : p.length ≤ 60) :
    (BitVec.ofNat 8 (p.length + 2) : Byte).toNat = p.length + 2 := by
  rw [BitVec.toNat_ofNat, Nat.mod_eq_of_lt (by omega)]

/-- Every byte of a frame but its checksum byte has been taken and stored, and `rest` still waits. -/
def awaitingChecksum (P : Params) (d : Dest) (type : Byte) (p rest : List Byte) (s : State) : State :=
  bodyStored (type :: p) rest (headerHeld (dval P d) (BitVec.ofNat 8 (p.length + 2)) [] s)

theorem receive_untilChecksum {d : Dest} {type : Byte} {p rest : List Byte} {c : Byte} (hi : s.inited = true)
    (hs : s.rxs = .seekSync) (hp : p.length ≤ 60) (hsrc : s.src = frameBytes P d type p c ++ rest) :
    receive P (p.length + 3) s = .next (awaitingChecksum P d type p (c :: rest) s) := by
  have hlen := toNat_lengthByte hp
  have hheader := receive_header hi hs (isDest_dval P d) (by omega) (by omega) (hsrc.trans (frameBytes_append ..))
  have hbody := receive_body (P := P) (s := headerHeld (dval P d) (BitVec.ofNat 8 (p.length + 2)) _ s)
    (bs := type :: p) (rest := c :: rest) hi rfl (hlen.trans_le (by omega)) rfl
    (by simp only [headerHeld, hlen, List.length_cons]; omega)
  rw [show p.length + 3 = 2 + (type :: p).length by rw [List.length_cons]; omega, receive_add_of_next hheader]
  exact hbody

theorem Memory.writeFrom_frameBytes (m : Memory) (P : Params) (d : Dest) (type : Byte) (p : List Byte) (c : Byte) :
    m.writeFrom 0 (frameBytes P d type p c) =
      ((m.writeFrom 0 [dval P d, BitVec.ofNat 8 (p.length + 2)]).writeFrom 2 (type :: p)).write
        (2 + (type :: p).length) c := by
  rw [show frameBytes P d type p c = [dval P d, BitVec.ofNat 8 (p.length + 2)] ++ ((type :: p) ++ [c]) from rfl,
    Memory.writeFrom_append, Memory.writeFrom_append]
  rfl

theorem Memory.read_writeFrom_frameBytes (m : Memory) (P : Params) (d : Dest) (type : Byte) (p : List Byte) (c : Byte)
    {k : Nat} (hk : k < p.length + 4) :
    (m.writeFrom 0 (frameBytes P d type p c)).read k = (frameBytes P d type p c)[k]? := by
  simpa using Memory.read_writeFrom_inside m 0 _ (hk.trans_eq (length_frameBytes P d type p c).symm)

/-- The step of the last byte: the frame stands whole in `RXBUF`, is judged, and the sequencer seeks again. -/
theorem takeByte_checksum {d : Dest} {type c computed : Byte} {p rest : List Byte} (hi : s.inited = true)
    (hs : s.rxs = .seekSync) (hp : p.length ≤ 60) (hcrc : crcSum s.table (type :: p) = .ok computed) :
    takeByte P (awaitingChecksum P d type p (c :: rest) s) = .next (judge P (dval P d) type p computed c
      { frameTaken (frameBytes P d type p c) s with rxn := 0, src := rest }) := by
  have hlen := toNat_lengthByte hp
  have hrxn : (awaitingChecksum P d type p (c :: rest) s).rxn = p.length + 3 := by
    simp only [awaitingChecksum, bodyStored, headerHeld, List.length_cons]
    omega
  have hbuf := fun k (hk : k < p.length + 4) => Memory.read_writeFrom_frameBytes s.rxbuf P d type p c hk
  rw [Memory.writeFrom_frameBytes] at hbuf
  calc takeByte P (awaitingChecksum P d type p (c :: rest) s)
    _ = emitFrame P (setRxbuf _ (setSource rest (awaitingChecksum P d type p (c :: rest) s))) :=
        (takeByte_cons (s := awaitingChecksum P d type p (c :: rest) s) hi rfl).trans
          (rxStep_lastBody (s := setSource rest (awaitingChecksum P d type p (c :: rest) s)) rfl
          (by rw [setSource_rxn]; omega) (by rw [setSource_rxn, hrxn]; exact congrArg (· + 2) hlen.symm))
    _ = .next (seekAgain _) := emitFrame_of_frame hp hlen hbuf hcrc
    _ = _ := by
        rw [← judge_seekAgain, frameTaken, Memory.writeFrom_frameBytes, hs]
        rfl

/-- R102 to R105: as many steps of a receive agent that seeks as the frame at the head of the source has bytes store it in
`RXBUF` from element 0 on and judge it once. -/
theorem receive_frame {d : Dest} {type c computed : Byte} {p rest : List Byte} (hi : s.inited = true)
    (hs : s.rxs = .seekSync) (hp : p.length ≤ 60) (hsrc : s.src = frameBytes P d type p c ++ rest)
    (hcrc : crcSum s.table (type :: p) = .ok computed) :
    receive P (p.length + 4) s = .next (judge P (dval P d) type p computed c
      { frameTaken (frameBytes P d type p c) s with rxn := 0, src := rest }) := by
  rw [receive_add_of_next (n := 1) (receive_untilChecksum hi hs hp hsrc), receive_one, takeByte_checksum hi hs hp hcrc]

/-! ## A received frame and `RXBUF` -/

/-- Taking a byte before the source is drained changes nothing of what draining it comes to. -/
theorem drain_takeByte (h : takeByte P s = .next t) : drain P t = drain P s := by
  rcases takeByte_next h with ⟨-, rfl⟩ | ⟨-, b, rest, hs, hrx⟩
  · rfl
  · have ht : t.src = rest := (rxStep_outside hrx).src
    rw [drain, drain, ht, hs, List.length_cons, receive_succ h]

/-- The step of the frame's own row takes the first byte (log 8). -/
theorem ReadyToReceive.offer_frame (h : ReadyToReceive s) (d : Dest) (type : Byte) (p : List Byte) (c : Byte) :
    offer P (frameBytes P d type p c) s =
      .next (holdSync (dval P d) (setSource ((frameBytes P d type p c).drop 1) s)) :=
  (offer_inited h.inited (by rw [h.sourceEmpty]; rfl)).trans (rxStep_holdSync h.seeking (isDest_dval P d))

/-- The steps after it take the others, and the frame is judged by the checksum of `CFG.POLY`. -/
theorem ReadyToReceive.drain_frame {d : Dest} {type c : Byte} {p : List Byte} (h : ReadyToReceive s)
    (hp : p.length ≤ 60) (hu : offer P (frameBytes P d type p c) s = .next u) :
    drain P u = .next (judge P (dval P d) type p (crcBitwise s.cfg.poly (type :: p)) c
      (frameTaken (frameBytes P d type p c) s)) := by
  have hsrc : (keepAtSource (frameBytes P d type p c) s).src = frameBytes P d type p c ++ [] := by
    simp [h.sourceEmpty]
  have hcrc : crcSum s.table (type :: p) = .ok (crcBitwise s.cfg.poly (type :: p)) := by
    rw [h.sound.tableBuilt h.inited, crcSum_crcTable]
  have hsame : { frameTaken (frameBytes P d type p c) (keepAtSource (frameBytes P d type p c) s) with
      rxn := 0, src := [] } = frameTaken (frameBytes P d type p c) s := by
    rw [← h.sound.seeking.mp h.seeking, ← h.sourceEmpty]
    rfl
  rw [drain_takeByte hu, drain, hsrc, List.append_nil, length_frameBytes,
    receive_frame (s := keepAtSource (frameBytes P d type p c) s) h.inited h.seeking hp hsrc hcrc, hsame]

end

theorem exec_frameOfType (d : Dest) (type : Byte) (p : List Byte) (c : Byte) (s : State) :
    exec (frameOfType Config.params d type p c) s = offer Config.params (frameBytes Config.params d type p c) s := by
  unfold frameOfType
  split_ifs
  all_goals
    subst_vars
    rfl

/-- A complete frame appends at most one error event (R212). -/
theorem DispatchDid.appends_one_error {P : Params} {dest : Byte} (h : DispatchDid P dest s t) :
    ∃ new, t.ev = s.ev ++ new ∧ (new.filter isErrorEvent).length ≤ 1 := by
  cases h with
  | channels v e => exact ⟨[.decChannels dest v], e ▸ rfl, List.length_filter_le ..⟩
  | link ls e => exact ⟨[.decLink dest ls], e ▸ rfl, List.length_filter_le ..⟩
  | generic type p e =>
    exact ⟨[.errUnsupportedType type, .generic dest type p], by simp [e, acceptGeneric], Nat.le_refl 1⟩
  | event ev _ e => exact ⟨[ev], e ▸ rfl, List.length_filter_le ..⟩

/-- Settles O33: the frame stands in `RXBUF`, and its judgement leaves everything outside the receive side alone. -/
theorem receivedFrameFrame : Obligations.ReceivedFrameFrame := by
  intro s u t d type p c h hp hexec hdrain
  rw [exec_frameOfType] at hexec
  cases (h.drain_frame hp hexec).symm.trans hdrain
  cases (h.offer_frame d type p c).symm.trans hexec
  have hdid := judge_did Config.params (dval Config.params d) type p (crcBitwise s.cfg.poly (type :: p)) c
    (frameTaken (frameBytes Config.params d type p c) s)
  obtain ⟨htxbuf, htable, hinited, hcfg, htx, hres, hsrc, hinbox⟩ := hdid.outside
  obtain ⟨hrxs, hrxn, -, hrxbuf⟩ := hdid.sequencer
  have hlen := length_frameBytes Config.params d type p c
  refine ⟨rfl, fun k hk => ?_, fun k hk => ?_, htxbuf, htable, htx, hres, hinited, hcfg, hsrc, hinbox,
    hrxs.trans h.seeking, hrxn.trans (h.sound.seeking.mp h.seeking), hdid.appends_one_error⟩
  · rw [hrxbuf]
    exact Memory.read_writeFrom_frameBytes s.rxbuf _ d type p c hk
  · rw [hrxbuf]
    exact Memory.read_writeFrom_outside s.rxbuf 0 _ (.inr (by omega))

end Sys2Proof.Machine

/-! PROOFS. Encoding (30_encoding.md): decoding inverts encoding, and words of the spec decode to their rows. -/

namespace Sys2Proof.Machine

/-! ## Big-endian fields read back -/

@[simp] theorem byteAt_cons_zero (b : Byte) (bs : List Byte) : byteAt (b :: bs) 0 = b := rfl

@[simp] theorem byteAt_cons_succ (b : Byte) (bs : List Byte) (o : Nat) : byteAt (b :: bs) (o + 1) = byteAt bs o := rfl

theorem bytes16_append (v : BitVec 16) : v.extractLsb' 8 8 ++ v.extractLsb' 0 8 = v :=
  (BitVec.extractLsb'_append_extractLsb'_eq_extractLsb' rfl).trans BitVec.extractLsb'_eq_self

theorem bytes24_append (v : BitVec 24) : v.extractLsb' 16 8 ++ v.extractLsb' 8 8 ++ v.extractLsb' 0 8 = v := by
  rw [BitVec.extractLsb'_append_extractLsb'_eq_extractLsb' (x := v) (start₁ := 8) (len₁ := 8) rfl]
  exact (BitVec.extractLsb'_append_extractLsb'_eq_extractLsb' rfl).trans BitVec.extractLsb'_eq_self

theorem bytes32_append (v : BitVec 32) :
    v.extractLsb' 24 8 ++ v.extractLsb' 16 8 ++ v.extractLsb' 8 8 ++ v.extractLsb' 0 8 = v := by
  rw [BitVec.extractLsb'_append_extractLsb'_eq_extractLsb' (x := v) (start₁ := 16) (len₁ := 8) rfl,
    BitVec.extractLsb'_append_extractLsb'_eq_extractLsb' (x := v) (start₁ := 8) (len₁ := 8) rfl]
  exact (BitVec.extractLsb'_append_extractLsb'_eq_extractLsb' rfl).trans BitVec.extractLsb'_eq_self

@[simp] theorem beGet16_bePut16 (v : BitVec 16) : beGet16 (bePut16 v) 0 = v := bytes16_append v

@[simp] theorem beGet24_bePut24 (v : BitVec 24) : beGet24 (bePut24 v) 0 = v := bytes24_append v

@[simp] theorem beGet32_bePut32 (v : BitVec 32) : beGet32 (bePut32 v) 0 = v := bytes32_append v

@[simp] theorem beGet32_cons_succ (b : Byte) (bs : List Byte) (o : Nat) : beGet32 (b :: bs) (o + 1) = beGet32 bs o := rfl

@[simp] theorem length_bePut16 (v : BitVec 16) : (bePut16 v).length = 2 := rfl

@[simp] theorem length_bePut24 (v : BitVec 24) : (bePut24 v).length = 3 := rfl

@[simp] theorem length_bePut32 (v : BitVec 32) : (bePut32 v).length = 4 := rfl

/-- R130 in a row of values written one after another. -/
theorem beGet16_flatMap_bePut16 (vs : List (BitVec 16)) {i : Nat} (hi : i < vs.length) :
    beGet16 (vs.flatMap bePut16) (2 * i) = vs[i] := by
  induction vs generalizing i with
  | nil => cases hi
  | cons v vs ih =>
    cases i with
    | zero => exact bytes16_append v
    | succ i => exact ih (Nat.lt_of_succ_lt_succ hi)

/-! ## Records read back -/

/-- Every 32-bit operand lies in the domain of a 32-bit signed write (R137). -/
theorem inSignedRange_w32 (v : BitVec 32) : inSignedRange .w32 v = true :=
  decide_eq_true ⟨BitVec.le_toInt v, Int.le_sub_one_of_lt BitVec.toInt_lt⟩

theorem bePuts_w32 (v : BitVec 32) : bePuts .w32 v = bePut32 v :=
  congrArg bePut32 (if_pos (inSignedRange_w32 v))

@[simp] theorem length_batteryPack (x : Battery) : (batteryPack x).length = 8 := rfl

@[simp] theorem length_gpsPack (x : Gps) : (gpsPack x).length = 15 := by
  simp [gpsPack, bePuts_w32]

theorem batteryUnpack_batteryPack (x : Battery) : batteryUnpack (batteryPack x) = some x := by
  simp [batteryUnpack, batteryPack, beGet16, beGet24, bePut16, bePut24, bytes16_append, bytes24_append]

theorem gpsUnpack_gpsPack (x : Gps) : gpsUnpack (gpsPack x) = some x := by
  simp [gpsUnpack, gpsPack, bePuts_w32, beGets, beGet16, beGet32, bePut16, bePut32, bytes16_append, bytes32_append]

end Sys2Proof.Machine

namespace Sys2Proof

open Machine

/-! ## Rows and lists of values read back -/

@[simp] theorem getElem_vecOf {α : Type} {n : Nat} (f : Nat → α) {i : Nat} (hi : i < n) : (vecOf n f)[i] = f i := by
  simp [vecOf]

@[simp] theorem getElem_vecMap {α β : Type} {n : Nat} (f : α → β) (v : Vector α n) {i : Nat} (hi : i < n) :
    (vecMap f v)[i] = f v[i] := by
  simp [vecMap]

@[simp] theorem toList_vecMap {α β : Type} {n : Nat} (f : α → β) (v : Vector α n) :
    (vecMap f v).toList = v.toList.map f := rfl

theorem vecOf_byteAt_append {n : Nat} (v : Vector Byte n) (bs : List Byte) :
    vecOf n (byteAt (v.toList ++ bs)) = v := by
  ext i hi
  simp [byteAt, List.getElem?_append_left, hi]

theorem vecOf_byteAt {n : Nat} (v : Vector Byte n) : vecOf n (byteAt v.toList) = v := by
  simpa using vecOf_byteAt_append v []

theorem vecOf_beGet16 {n : Nat} (v : Vector (BitVec 16) n) :
    (vecOf n fun i => beGet16 (v.toList.flatMap bePut16) (2 * i)) = v := by
  apply Vector.ext
  intro i hi
  rw [getElem_vecOf, beGet16_flatMap_bePut16 _ (by simpa using hi), Vector.getElem_toList]

theorem words16_flatMap_bePut16 (vs : List (BitVec 16)) : words16 (vs.flatMap bePut16) = some vs := by
  induction vs with
  | nil => rfl
  | cons v vs ih =>
    calc words16 ((v :: vs).flatMap bePut16)
      _ = (words16 (vs.flatMap bePut16)).map (beGet16 (bePut16 v) 0 :: ·) := rfl
      _ = some (v :: vs) := by simp [ih]

theorem words32_flatMap_bePut32 (vs : List (BitVec 32)) : words32 (vs.flatMap bePut32) = some vs := by
  induction vs with
  | nil => rfl
  | cons v vs ih =>
    calc words32 ((v :: vs).flatMap bePut32)
      _ = (words32 (vs.flatMap bePut32)).map (beGet32 (bePut32 v) 0 :: ·) := rfl
      _ = some (v :: vs) := by simp [ih]

/-- A 16-bit copy of an 11-bit value has its upper five bits 0, and cutting it gives the value back. -/
theorem words11_flatMap_bePut16 (v : Vector (BitVec 11) 16) :
    words11 (v.toList.flatMap fun x => bePut16 (x.setWidth 16)) = some v := by
  have hrow : (vecOf 16 fun i => beGet16 (v.toList.flatMap fun x => bePut16 (x.setWidth 16)) (2 * i)) =
      vecMap (BitVec.setWidth 16) v := by
    rw [← vecOf_beGet16 (vecMap (BitVec.setWidth 16) v), toList_vecMap, List.flatMap_map]
  have hupper : ((vecMap (BitVec.setWidth 16) v).toList.all fun x => decide (x.toNat < 2048)) = true := by
    simp only [toList_vecMap, List.all_map, List.all_eq_true, Function.comp_apply, decide_eq_true_eq,
      BitVec.toNat_setWidth]
    intro x _
    exact (Nat.mod_le _ _).trans_lt x.isLt
  have hcut : vecMap (BitVec.setWidth 11) (vecMap (BitVec.setWidth 16) v) = v := by
    apply Vector.ext
    intro i hi
    simp
  rw [words11, hrow, if_pos hupper, hcut]

@[simp] theorem destOfCode_destCode (d : Dest) : destOfCode (destCode d) = some d := by cases d <;> rfl

@[simp] theorem bitOfCode_bitCode (v : Bool) : bitOfCode (bitCode v) = some v := by cases v <;> rfl

@[simp] theorem widthOfCode_widthCode (w : Width) : widthOfCode (widthCode w) = some w := by cases w <;> rfl

/-! ## Frames (R60 to R65) -/

section
variable {P : Params}

theorem Params.distinct_of_ok (h : P.ok = true) : P.destFc ≠ P.destTx ∧ P.types.Nodup := by
  simp only [Params.ok, Bool.and_eq_true, bne_iff_ne, decide_eq_true_eq] at h
  exact h.1

theorem destOf_dval (h : P.destFc ≠ P.destTx) (d : Dest) : destOf P (dval P d) = some d := by
  cases d with
  | fc => exact if_pos rfl
  | tx => exact (if_neg h.symm).trans (if_pos rfl)

theorem decodeFrame_frameBytes (h : P.destFc ≠ P.destTx) (d : Dest) (type : Byte) {p : List Byte} (hp : p.length ≤ 60)
    (c : Byte) : decodeFrame P (frameBytes P d type p c) = .ok (frameOfType P d type p c) := by
  have hlen := toNat_lengthByte hp
  have hframe : frameBytes P d type p c = dval P d :: BitVec.ofNat 8 (p.length + 2) :: type :: (p ++ [c]) := rfl
  have hadmitted : ¬(p.length + 2 < Config.minLen ∨ Config.maxLen < p.length + 2) := by
    rw [Config.minLen, Config.maxLen]
    omega
  simp only [hframe, decodeFrame, destOf_dval h, hlen, if_neg hadmitted]
  simp [byteAt]

theorem decode_frameBytes (h : P.destFc ≠ P.destTx) (d : Dest) (type : Byte) {p : List Byte}
    (hp : payloadFits p = true) (c : Byte) :
    decode P .serial (frameBytes P d type p c) = .ok (frameOfType P d type p c) := by
  rw [decode, decodeSerial, decodeFrame_frameBytes h d type (of_decide_eq_true hp) c]

/-- The six types of R65 are pairwise distinct, so that each selects its own row. -/
theorem frameOfType_types (h : P.types.Nodup) (d : Dest) (p : List Byte) (c : Byte) :
    frameOfType P d P.typeGps p c = .gps d p c ∧ frameOfType P d P.typeBattery p c = .battery d p c ∧
    frameOfType P d P.typeRpm p c = .rpm d p c ∧ frameOfType P d P.typeTemp p c = .temp d p c ∧
    frameOfType P d P.typeLink p c = .link d p c ∧ frameOfType P d P.typeChannels p c = .channels d p c := by
  simp only [Params.types, List.nodup_cons, List.mem_cons, List.not_mem_nil, or_false, not_or] at h
  simp [frameOfType, h, eq_comm]

theorem frameOfType_other {type : Byte} (h : P.types.contains type = false) (d : Dest) (p : List Byte) (c : Byte) :
    frameOfType P d type p c = .generic d type p c := by
  simp only [Params.types, List.contains_eq_mem, List.mem_cons, List.not_mem_nil, or_false, decide_eq_false_iff_not,
    not_or] at h
  simp [frameOfType, h]

end

/-! ## Operations (R75, R76) -/

theorem decode_host {code : Byte} {op : Op} (h : hostOps.lookup code = some op) (P : Params) (args : List Byte) :
    decode P .host (code :: args) = decodeOperands code op args := by
  rw [decode, decodeHost, h]

theorem decode_unit {code : Byte} {op : Op} (h : unitOps.lookup code = some op) (P : Params) (args : List Byte) :
    decode P .unit (code :: args) = decodeOperands code op args := by
  rw [decode, decodeUnit, h]

@[simp] theorem sized_true (code : Byte) (i : Instr) : sized code true i = .ok i := rfl

@[simp] theorem valued_some {α : Type} (code : Byte) (v : α) (k : α → Except DecodeError Instr) :
    valued code (some v) k = k v := rfl

/-- The host operations have the codes below 8 (R75). -/
theorem hostOps_lookup_none {code : Byte} (h : 8 ≤ code.toNat) : hostOps.lookup code = none := by
  have hcodes : ∀ row ∈ hostOps, row.1.toNat < 8 := by decide
  rw [List.lookup_eq_none_iff]
  intro row hrow
  rw [bne_iff_ne]
  rintro rfl
  exact Nat.not_lt.mpr h (hcodes row hrow)

/-- R195: every other 6-bit code is a reserved operation, whatever follows it. -/
theorem decode_host_reserved {code : Byte} (hlo : 8 ≤ code.toNat) (hhi : code.toNat < 64) (P : Params)
    (args : List Byte) : decode P .host (code :: args) = .ok (.reservedOp (code.setWidth 6)) := by
  simp [decode, decodeHost, hostOps_lookup_none hlo, hhi]

theorem decode_host_reservedOp {op : BitVec 6} (h : 8 ≤ op.toNat) (P : Params) :
    decode P .host [op.setWidth 8] = .ok (.reservedOp op) := by
  have hop := op.isLt
  have hcode : (op.setWidth 8).toNat = op.toNat := BitVec.toNat_setWidth_of_le (by decide)
  rw [decode_host_reserved (by omega) (by omega), BitVec.setWidth_setWidth_of_le _ (by decide), BitVec.setWidth_eq]

/-- Settles O1: a frame's bytes give back the row of its type, and the operand bytes of an operation the values they
were written from. The operations left to the last line have no operands, or single bytes and one list as they stand. -/
theorem decodeOfEncodeIsTheInstr : Obligations.DecodeOfEncodeIsTheInstr := by
  intro P i hP hwf
  obtain ⟨hdest, htypes⟩ := Params.distinct_of_ok hP
  cases i
  case gps d p c | battery d p c | rpm d p c | temp d p c | link d p c | channels d p c =>
    exact (decode_frameBytes hdest d _ hwf c).trans (by simp [frameOfType_types htypes d p c])
  case generic d type p c =>
    obtain ⟨hp, htype⟩ := Bool.and_eq_true_iff.mp hwf
    exact (decode_frameBytes hdest d type hp c).trans
      (congrArg Except.ok (frameOfType_other ((Bool.not_eq_true' _).mp htype) d p c))
  case reservedOp op => exact decode_host_reservedOp (of_decide_eq_true hwf) P
  case init => exact (decode_host rfl P _).trans (by simp [decodeOperands])
  case sendBattery | sendGps =>
    exact (decode_host rfl P _).trans (by simp [decodeOperands, batteryUnpack_batteryPack, gpsUnpack_gpsPack])
  case sendRpm | sendTemp =>
    exact (decode_host rfl P _).trans (by simp [decodeOperands, words32_flatMap_bePut32, words16_flatMap_bePut16])
  case crcSum | chUnpack | linkPack | stUpdateLs =>
    exact (decode_unit rfl P _).trans (by simp [decodeOperands, vecOf_byteAt_append, vecOf_byteAt])
  case chPack | stUpdateCh =>
    exact (decode_unit rfl P _).trans (by simp [decodeOperands, vecOf_beGet16, words11_flatMap_bePut16])
  case beGet16 | beGet24 | beGet32 | beGets =>
    have hoffset := Nat.mod_eq_of_lt (of_decide_eq_true hwf)
    exact (decode_unit rfl P _).trans (by simp [decodeOperands, hoffset])
  case bePut16 | bePut24 | bePut32 | bePuts => exact (decode_unit rfl P _).trans (by simp [decodeOperands])
  case batteryPack | gpsPack =>
    exact (decode_unit rfl P _).trans (by simp [decodeOperands, batteryUnpack_batteryPack, gpsUnpack_gpsPack])
  case rpmPack | tempPack =>
    exact (decode_unit rfl P _).trans (by simp [decodeOperands, words32_flatMap_bePut32, words16_flatMap_bePut16])
  all_goals rfl

/-- Settles O2: the decoder evaluates to the named row on each of the words. -/
theorem specWordsDecodeToTheirRows : Obligations.SpecWordsDecodeToTheirRows :=
  ⟨rfl, rfl, rfl, rfl, rfl, rfl, rfl, rfl, rfl, rfl, rfl, rfl, rfl, rfl, rfl, rfl, rfl⟩

end Sys2Proof

/-! PROOFS. The checksum engine (40_crc8.md): one round as a linear map of the bytes, the generator's table, and the
laws of the checksum. -/

namespace Sys2Proof.Machine

/-! ## One round (R91) -/

theorem getLsbD_seven (c : Byte) : c.getLsbD 7 = decide (128 ≤ c.toNat) := c.msb_eq_decide

/-- R91 in numbers: twice the byte, the bit shifted out lost. -/
theorem crcRound_eq_double (poly c : Byte) :
    crcRound poly c =
      if c.toNat < 128 then BitVec.ofNat 8 (2 * c.toNat) else BitVec.ofNat 8 (2 * c.toNat) ^^^ poly := by
  have hshift : c <<< 1 = BitVec.ofNat 8 (2 * c.toNat) := by bv_omega
  rw [crcRound, getLsbD_seven, hshift]
  by_cases h : c.toNat < 128
  · rw [if_pos h, if_neg (by simpa using h)]
  · rw [if_neg h, if_pos (by simpa using h)]

theorem crcRound_xor (poly a b : Byte) : crcRound poly (a ^^^ b) = crcRound poly a ^^^ crcRound poly b := by
  unfold crcRound
  rw [BitVec.getLsbD_xor, BitVec.shiftLeft_xor_distrib]
  cases a.getLsbD 7 <;> cases b.getLsbD 7
  · rfl
  · exact BitVec.xor_assoc ..
  · simp [BitVec.xor_assoc, BitVec.xor_comm poly]
  · simp [BitVec.xor_assoc, BitVec.xor_comm poly]

@[simp] theorem crcRound_zero (poly : Byte) : crcRound poly 0#8 = 0#8 := rfl

/-- The odd polynomial sets the bit that the shift has cleared, so only the byte 0 goes to 0. -/
theorem eq_zero_of_crcRound_eq_zero {poly c : Byte} (hpoly : poly.getLsbD 0 = true) (h : crcRound poly c = 0) :
    c = 0 := by
  cases htop : c.getLsbD 7 with
  | true =>
    simp only [crcRound, htop, if_true] at h
    rw [← BitVec.xor_eq_zero_iff.mp h] at hpoly
    simp at hpoly
  | false =>
    rw [getLsbD_seven, decide_eq_false_iff_not] at htop
    rw [crcRound_eq_double, if_pos (by omega)] at h
    bv_omega

theorem crcRound_injective {poly : Byte} (hpoly : poly.getLsbD 0 = true) : Function.Injective (crcRound poly) := by
  intro a b h
  apply BitVec.xor_eq_zero_iff.mp
  apply eq_zero_of_crcRound_eq_zero hpoly
  rw [crcRound_xor, h]
  exact BitVec.xor_self

/-! ## One table entry (R90) -/

theorem crcEntry_eq_iterate (poly : Byte) : crcEntry poly = (crcRound poly)^[8] := rfl

theorem crcEntry_xor (poly a b : Byte) : crcEntry poly (a ^^^ b) = crcEntry poly a ^^^ crcEntry poly b :=
  Function.Semiconj₂.iterate (crcRound_xor poly) 8 a b

@[simp] theorem crcEntry_zero (poly : Byte) : crcEntry poly 0#8 = 0#8 := by
  rw [crcEntry_eq_iterate]
  exact Function.iterate_fixed (crcRound_zero poly) 8

/-- Seven plain shifts bring the 1 to the top bit; the eighth shifts it out. -/
theorem crcEntry_one (poly : Byte) : crcEntry poly 1 = poly := by
  have hshifts : Nat.repeat (crcRound poly) 7 1 = 0x80 := by simp [Nat.repeat, crcRound]
  exact (congrArg (crcRound poly) hshifts).trans BitVec.zero_xor

/-- Eight plain shifts empty the byte. -/
theorem crcEntry_polyZero (c : Byte) : crcEntry 0#8 c = 0#8 := by
  have hround : crcRound 0#8 = fun c : Byte => c <<< 1 := by
    funext c
    simp [crcRound]
  calc crcEntry 0#8 c = c <<< 1 <<< 1 <<< 1 <<< 1 <<< 1 <<< 1 <<< 1 <<< 1 := by rw [crcEntry, hround]; rfl
    _ = c <<< 8 := by simp only [← BitVec.shiftLeft_add]
    _ = 0#8 := BitVec.shiftLeft_eq_zero (Nat.le_refl 8)

theorem crcEntry_injective {poly : Byte} (hpoly : poly.getLsbD 0 = true) : Function.Injective (crcEntry poly) :=
  (crcRound_injective hpoly).iterate 8

/-! ## The table (R90, R94) -/

theorem crcBuild_getD (poly : Byte) {i : Nat} (hi : i < 256) :
    (crcBuild poly).toList.getD i 0 = crcEntry poly (BitVec.ofNat 8 i) := by
  rw [List.getD_eq_getElem?_getD, crcBuild_getElem? poly hi, Option.getD_some]

/-- The polynomial 0 gives the table of zeros. -/
theorem crcBuild_zero : crcBuild 0 = Vector.replicate 256 0 := by
  ext1 i hi
  simp [crcBuild, crcEntry_polyZero]

/-- Settles O14: the table of `crcBuild`, whose round is the rule's. -/
theorem crcBuildIsEightRoundsPerEntry : Obligations.CrcBuildIsEightRoundsPerEntry := by
  intro poly s
  refine ⟨crcBuild poly, rfl, fun i hi => ?_, ?_, ?_, ?_⟩
  · rw [← funext (crcRound_eq_double poly)]
    exact crcBuild_getD poly hi
  · exact (crcBuild_getD poly (by decide)).trans (crcEntry_zero poly)
  · exact (crcBuild_getD poly (by decide)).trans (crcEntry_one poly)
  · rintro rfl
    exact crcBuild_zero

/-- Settles O15: the model evaluates to the printed rows. -/
theorem protocolTableIsAsPrinted : Obligations.ProtocolTableIsAsPrinted := by
  unfold Obligations.ProtocolTableIsAsPrinted
  decide +kernel

/-! ## The fold through a table (R92) -/

theorem crcFold_of_memRead {T : Memory} {f : Byte → Byte} (h : ∀ c : Byte, memRead .table T c.toNat = .ok (f c))
    (c : Byte) (bytes : List Byte) : crcFold T c bytes = .ok (bytes.foldl (fun c b => f (c ^^^ b)) c) := by
  induction bytes generalizing c with
  | nil => rfl
  | cons b bs ih => simp only [crcFold, h, ih, List.foldl_cons]

theorem memRead_ofBytes_table (T : Vector Byte 256) (c : Byte) :
    memRead .table (Memory.ofBytes T.toList) c.toNat = .ok (T.toList.getD c.toNat 0) := by
  have hc : c.toNat < 256 := c.isLt
  exact memRead_ok.mpr ⟨hc, by simp [hc]⟩

/-- Settles O16: every index of the fold is a byte, so every read finds an element of the table. -/
theorem crcSumFoldsThroughTheTable : Obligations.CrcSumFoldsThroughTheTable := by
  intro T bytes s
  have hsum := crcFold_of_memRead (memRead_ofBytes_table T) 0 bytes
  show execCrcSum T bytes s = _
  simp only [execCrcSum, crcSum, hsum, withValue, give]

/-! ## The laws of the checksum (R93) -/

/-- One byte of the bitwise checksum (R93 (a)). -/
def crcStep (poly c b : Byte) : Byte := crcEntry poly (c ^^^ b)

theorem crcBitwise_eq_foldl (poly : Byte) (bytes : List Byte) :
    crcBitwise poly bytes = bytes.foldl (crcStep poly) 0 := rfl

theorem crcStep_xor (poly x y a b : Byte) :
    crcStep poly (x ^^^ y) (a ^^^ b) = crcStep poly x a ^^^ crcStep poly y b := by
  rw [crcStep, crcStep, crcStep, ← crcEntry_xor]
  congr 1
  ac_rfl

@[simp] theorem crcStep_self (poly c : Byte) : crcStep poly c c = 0#8 := by simp [crcStep]

theorem foldl_crcStep_xor (poly x y : Byte) {a m : List Byte} (h : a.length = m.length) :
    (List.zipWith (· ^^^ ·) a m).foldl (crcStep poly) (x ^^^ y) =
      a.foldl (crcStep poly) x ^^^ m.foldl (crcStep poly) y := by
  induction a generalizing x y m with
  | nil => cases m with
    | nil => rfl
    | cons => cases h
  | cons b bs ih => cases m with
    | nil => cases h
    | cons c cs => simp only [List.zipWith_cons_cons, List.foldl_cons, crcStep_xor, ih _ _ (Nat.succ.inj h)]

theorem foldl_crcStep_zeros (poly : Byte) (n : Nat) : (List.replicate n 0).foldl (crcStep poly) 0 = 0 := by
  induction n with
  | zero => rfl
  | succ n ih => rw [List.replicate_succ, List.foldl_cons, crcStep_self]; exact ih

/-- R93 (b): the last byte of the fold indexes entry 0. -/
theorem crcBitwise_append_self (poly : Byte) (m : List Byte) : crcBitwise poly (m ++ [crcBitwise poly m]) = 0 := by
  simp [crcBitwise_eq_foldl]

/-- R93 (c). -/
theorem crcBitwise_xor (poly : Byte) {a m : List Byte} (h : a.length = m.length) :
    crcBitwise poly (List.zipWith (· ^^^ ·) a m) = crcBitwise poly a ^^^ crcBitwise poly m :=
  foldl_crcStep_xor poly 0 0 h

/-- R93 (e). -/
theorem crcBitwise_zeros_append (poly : Byte) (n : Nat) (m : List Byte) :
    crcBitwise poly (List.replicate n 0 ++ m) = crcBitwise poly m := by
  rw [crcBitwise_eq_foldl, List.foldl_append, foldl_crcStep_zeros, crcBitwise_eq_foldl]

/-- Settles O17: the checksum through the table is the bitwise one, and the laws hold of that. -/
theorem checksumLaws : Obligations.ChecksumLaws := fun poly m =>
  ⟨crcSum_crcTable poly m, by rw [crcSum_crcTable, crcBitwise_append_self], fun _ => crcBitwise_xor poly,
    fun n => crcBitwise_zeros_append poly n m⟩

section
variable {poly : Byte}

theorem crcStep_left_injective (hpoly : poly.getLsbD 0 = true) (b : Byte) : Function.Injective (crcStep poly · b) :=
  fun _ _ h => (BitVec.xor_left_inj b).mp (crcEntry_injective hpoly h)

theorem crcStep_right_injective (hpoly : poly.getLsbD 0 = true) (c : Byte) : Function.Injective (crcStep poly c) :=
  fun _ _ h => (BitVec.xor_right_inj c).mp (crcEntry_injective hpoly h)

/-- Running values that differ stay different over the bytes that follow. -/
theorem foldl_crcStep_injective (hpoly : poly.getLsbD 0 = true) (bytes : List Byte) :
    Function.Injective (bytes.foldl (crcStep poly)) := by
  induction bytes with
  | nil => exact Function.injective_id
  | cons b bs ih => exact ih.comp (crcStep_left_injective hpoly b)

end

/-- Settles O18: the changed byte gives another running value, which the bytes after it keep apart. -/
theorem oddPolynomialCatchesOneByte : Obligations.OddPolynomialCatchesOneByte := by
  intro poly before after b c hpoly hbc
  refine ⟨(crcEntry_injective hpoly).ne hbc, ?_⟩
  simp only [crcBitwise_eq_foldl, List.foldl_append, List.foldl_cons]
  exact (foldl_crcStep_injective hpoly after).ne ((crcStep_right_injective hpoly _).ne hbc)

end Sys2Proof.Machine

/-! PROOFS. The receive sequencer and the frame codec (41_frame_sync.md): one step of the sequencer, chunks and waiting
bytes, the cursor algorithm, `FRAME_ENCODE`, and that no step of the hardware stops. -/

namespace Sys2Proof.Machine

variable {s t u : State}

/-! ## One byte (R101 to R103) -/

theorem isDest_iff {P : Params} {b : Byte} : isDest P b = true ↔ b = P.destFc ∨ b = P.destTx := by
  simp [isDest]

theorem rxStep_seekSync {P : Params} {b : Byte} (hs : s.rxs = .seekSync) : rxStep P b s = .next (rxSeek P b s) := by
  simp [rxStep, hs]

theorem rxStep_readLength {P : Params} {b : Byte} (hs : s.rxs = .readLength) :
    rxStep P b s = .next (rxLength P b s) := by
  simp [rxStep, hs]

theorem rxStep_awaitBody {P : Params} {b : Byte} (hs : s.rxs = .awaitBody) : rxStep P b s = rxBody P b s := by
  simp [rxStep, hs]

/-- `RX_BYTE` takes the byte that stands first once its own is presented (R100, R101). -/
theorem exec_rxByte {b x : Byte} {rest : List Byte} (hi : s.inited = true) (hsrc : s.src ++ [b] = x :: rest) :
    exec (.rxByte b) s = rxStep Config.params x (setSource rest s) :=
  offer_inited hi hsrc

/-- Settles O19: both branches of `rxSeek`. -/
theorem seekSyncStep : Obligations.SeekSyncStep := by
  intro s b x rest hi hsrc hs
  rw [exec_rxByte hi hsrc, rxStep_seekSync (s := setSource rest s) hs]
  simp only [rxSeek, isDest_iff]
  rfl

/-- Settles O20: the three branches of `rxLength`. -/
theorem readLengthStep : Obligations.ReadLengthStep := by
  intro s b x rest hi hsrc hs
  rw [exec_rxByte hi hsrc, rxStep_readLength (s := setSource rest s) hs]
  simp only [rxLength, isDest_iff]
  rfl

/-! ## The last byte of a frame (R104, R105) -/

/-- A row of written elements holds some row of bytes. -/
theorem Memory.exists_bytes {m : Memory} {i n : Nat} (h : ∀ k, k < n → (m.read (i + k)).isSome = true) :
    ∃ bs : List Byte, bs.length = n ∧ ∀ k, k < n → m.read (i + k) = bs[k]? := by
  refine ⟨(List.range n).map fun k => (m.read (i + k)).getD 0, by simp, fun k hk => ?_⟩
  obtain ⟨b, hb⟩ := Option.isSome_iff_exists.mp (h k hk)
  simp [hk, hb]

theorem exists_dval_of_isDest {P : Params} {b : Byte} (h : isDest P b = true) : ∃ d, dval P d = b := by
  rcases isDest_iff.mp h with rfl | rfl
  · exact ⟨.fc, rfl⟩
  · exact ⟨.tx, rfl⟩

/-- The payload and the checksum byte stand behind the three bytes of the header (R60). -/
theorem getElem?_frameBytes_add_three (P : Params) (d : Dest) (type : Byte) (p : List Byte) (c : Byte) (k : Nat) :
    (frameBytes P d type p c)[k + 3]? = (p ++ [c])[k]? := rfl

/-- What a sound sequencer holds up to its last body byte `x` is, with it, a whole frame whose checksum byte is `x`. -/
theorem EngineInv.frame_whole (h : EngineInv s) (hs : s.rxs = .awaitBody) (hlast : s.rxn + 1 = s.rxlen.toNat + 2)
    (x : Byte) : ∃ (d : Dest) (type : Byte) (p : List Byte), s.rxlen.toNat = p.length + 2 ∧ p.length ≤ 60 ∧
      ∀ k, k < p.length + 4 → (s.rxbuf.write s.rxn x).read k = (frameBytes Config.params d type p x)[k]? := by
  obtain ⟨hlo, hhi, -, -, hlength⟩ := h.bodyBounds hs
  obtain ⟨dest, hdest, hd⟩ := (Option.any_eq_true _ _).mp (h.syncHeld (by simp [hs]))
  obtain ⟨d, rfl⟩ := exists_dval_of_isDest hd
  obtain ⟨type, htype⟩ := Option.isSome_iff_exists.mp (h.heldWritten 2 (by omega))
  obtain ⟨p, hp, hpayload⟩ := Memory.exists_bytes (m := s.rxbuf) (i := 3) (n := s.rxlen.toNat - 2)
    fun k hk => h.heldWritten _ (by omega)
  have hlen : BitVec.ofNat 8 (p.length + 2) = s.rxlen := by
    rw [hp, Nat.sub_add_cancel hlo, BitVec.ofNat_toNat, BitVec.setWidth_eq]
  refine ⟨d, type, p, by omega, by omega, fun k hk => ?_⟩
  obtain rfl | hk : k = s.rxn ∨ k < s.rxn := by omega
  · rw [Memory.read_write_same, show s.rxn = p.length + 3 by omega]
    simp [getElem?_frameBytes_add_three]
  rw [Memory.read_write_other _ (by omega)]
  rcases k with _ | _ | _ | k
  · exact hdest
  · exact hlength.trans (congrArg some hlen.symm)
  · exact htype
  · rw [getElem?_frameBytes_add_three, List.getElem?_append_left (by omega), ← hpayload k (by omega), Nat.add_comm 3 k]

theorem crcSum_table (h : s.table = crcTable s.cfg.poly) (bytes : List Byte) :
    crcSum s.table bytes = .ok (crcBitwise s.cfg.poly bytes) := by
  rw [h, crcSum_crcTable]

/-- The step of the last body byte (R104 to R106): the frame it completes is judged, and the sequencer seeks again. -/
theorem EngineInv.rxStep_lastByte (h : EngineInv s) (hi : s.inited = true) (hs : s.rxs = .awaitBody)
    (hlast : s.rxn + 1 = s.rxlen.toNat + 2) (x : Byte) :
    ∃ (d : Dest) (type : Byte) (p : List Byte), s.rxlen.toNat = p.length + 2 ∧
      (∀ k, k < p.length + 4 → (s.rxbuf.write s.rxn x).read k = (frameBytes Config.params d type p x)[k]?) ∧
      rxStep Config.params x s = .next (judge Config.params (dval Config.params d) type p
        (crcBitwise s.cfg.poly (type :: p)) x (seekAgain (setRxbuf (s.rxbuf.write s.rxn x) s))) := by
  obtain ⟨d, type, p, hlen, hp, hbuf⟩ := h.frame_whole hs hlast x
  refine ⟨d, type, p, hlen, hbuf, ?_⟩
  rw [rxStep_lastBody hs (by omega) hlast, judge_seekAgain]
  exact emitFrame_of_frame hp hlen hbuf (crcSum_table (h.tableBuilt hi) _)

/-- Settles O21: a body byte is stored, and the last one completes a frame that is judged. -/
theorem awaitBodyStep : Obligations.AwaitBodyStep := by
  intro s b x rest h hi hsrc hs
  have hn : s.rxn < 64 := by have := h.bodyBounds hs; omega
  rw [exec_rxByte hi hsrc]
  refine ⟨rxStep_storeBody (s := setSource rest s) hs hn, fun hlast => ?_⟩
  obtain ⟨d, type, p, hlen, hbuf, hstep⟩ := (setSource_inv rest h).rxStep_lastByte hi hs hlast x
  have hlen : s.rxlen.toNat = p.length + 2 := hlen
  refine ⟨dval Config.params d, type, p, hbuf 0 (by omega), hbuf 2 (by omega), by omega, fun k hk => ?_, hstep⟩
  rw [Nat.add_comm, ← List.getElem?_append_left hk]
  exact hbuf (k + 3) (by omega)

/-! ## The frame of one step and its transitions (R113) -/

/-- The complete list of transitions: the state of the sequencer after the byte `b`. -/
def nextRxState (b : Byte) (s : State) : RxState :=
  match s.rxs with
  | .seekSync => if isDest Config.params b then .readLength else .seekSync
  | .readLength => if 2 ≤ b.toNat ∧ b.toNat ≤ 62 then .awaitBody
    else if isDest Config.params b then .readLength else .seekSync
  | .awaitBody => if s.rxn + 1 = s.rxlen.toNat + 2 then .seekSync else .awaitBody

/-- What the byte `b` leaves in `RXBUF`. -/
def rxbufAfter (b : Byte) (s : State) : Memory :=
  match storedAt b s with
  | some k => s.rxbuf.write k b
  | none => s.rxbuf

theorem emitFrame_sequencer {P : Params} (h : emitFrame P s = .next t) : t.rxs = .seekSync ∧ t.rxbuf = s.rxbuf := by
  obtain ⟨dest, type, payload, received, computed, -, -, -, -, -, rfl⟩ := emitFrame_next h
  exact ⟨rfl, (judge_did P dest type payload computed received s).sequencer.rxbuf⟩

/-- One step of the sequencer stores its byte where the rules say and goes where the list of transitions says. -/
theorem rxStep_sequencer {b : Byte} (h : rxStep Config.params b s = .next t) :
    t.rxs = nextRxState b s ∧ t.rxbuf = rxbufAfter b s := by
  rcases rxStep_next h with ⟨hs, hd, rfl⟩ | ⟨hs, hd, rfl⟩ | ⟨hs, hlo, hhi, rfl⟩ | ⟨hs, hb, hd, rfl⟩ |
    ⟨hs, hb, hd, rfl⟩ | ⟨hs, -, hlast, rfl⟩ | ⟨hs, -, hlast, hemit⟩
  · simp [nextRxState, rxbufAfter, storedAt, hs, hd, holdSync]
  · simp [nextRxState, rxbufAfter, storedAt, hs, hd]
  · simp [nextRxState, rxbufAfter, storedAt, hs, hlo, hhi, holdLength]
  · simp [nextRxState, rxbufAfter, storedAt, hs, hb, hd, holdSync]
  · simp [nextRxState, rxbufAfter, storedAt, hs, hb, hd, seekAgain]
  · simp [nextRxState, rxbufAfter, storedAt, hs, Nat.succ_inj.not.mp hlast]
  · simp [nextRxState, rxbufAfter, storedAt, hs, hlast, emitFrame_sequencer hemit]

/-- Settles O22: where the step stores its byte and goes, and that it leaves everything outside the receive side. -/
theorem rxByteFrame : Obligations.RxByteFrame := by
  intro s t b x rest hi hsrc hexec
  rw [exec_rxByte hi hsrc] at hexec
  obtain ⟨hrxs, hrxbuf⟩ : t.rxs = nextRxState x s ∧ t.rxbuf = rxbufAfter x s :=
    rxStep_sequencer (s := setSource rest s) hexec
  obtain ⟨htxbuf, htable, hinited, hcfg, htx, hres, hsrc, hinbox⟩ := rxStep_outside hexec
  refine ⟨fun k hk => ?_, fun k hk => ?_, htxbuf, htable, hinited, hcfg, htx, hres, hsrc, hinbox,
    fun hs => ?_, fun hs => ?_, fun hs => ?_⟩
  · rw [hrxbuf, rxbufAfter]
    cases hst : storedAt x s with
    | none => rfl
    | some j => exact Memory.read_write_other _ (fun hkj => hk (hst.trans (congrArg some hkj.symm))) x
  · rw [hrxbuf, rxbufAfter, hk]
    exact Memory.read_write_same ..
  all_goals rw [hrxs, nextRxState, hs]

/-! ## One outcome after another -/

@[simp] theorem andThen_next (s : State) (k : State → Out) : andThen (.next s) k = k s := rfl

theorem andThen_assoc (x : Out) (k l : State → Out) :
    andThen (andThen x k) l = andThen x fun t => andThen (k t) l := by
  cases x <;> rfl

theorem andThen_eq_next {x : Out} {k : State → Out} : andThen x k = .next t ↔ ∃ u, x = .next u ∧ k u = .next t := by
  cases x <;> simp [andThen]

theorem andThen_withValue {α : Type} (x : Except Fault α) (k : α → Out) (l : State → Out) :
    andThen (withValue x k) l = withValue x fun v => andThen (k v) l := by
  cases x <;> rfl

theorem execAll_cons (i : Instr) (is : List Instr) (s : State) :
    execAll (i :: is) s = andThen (exec i s) (execAll is) := by
  cases h : exec i s <;> simp [execAll, andThen, h]

theorem execAll_pair (i j : Instr) (s : State) : execAll [i, j] s = andThen (exec i s) (exec j) := by
  have hlast : execAll [j] = exec j := funext fun t => by cases h : exec j t <;> simp [execAll, h]
  rw [execAll_cons, hlast]

theorem receive_succ_eq_andThen (P : Params) (n : Nat) (s : State) :
    receive P (n + 1) s = andThen (takeByte P s) (receive P n) := by
  cases h : takeByte P s <;> simp [receive, andThen, h]

/-! ## Updates that no frame sees -/

/-- An update of the state that commutes with everything a judged frame does (R105, R106, R150 to R155) and leaves `CFG`
alone, which decides on the frame. -/
structure CommutesWithFrames (P : Params) (f : State → State) : Prop where
  cfg : ∀ s, (f s).cfg = s.cfg
  event : ∀ e s, scanEvent e = false → emitEvent e (f s) = f (emitEvent e s)
  channels : ∀ v s, updateChannels v (f s) = f (updateChannels v s)
  linkStats : ∀ ls s, updateLinkStats ls (f s) = f (updateLinkStats ls s)
  fed : ∀ s, feedWatchdog P (f s) = f (feedWatchdog P s)

namespace CommutesWithFrames

variable {P : Params} {f : State → State}

theorem onValue_comm (h : CommutesWithFrames P f) {α : Type} {k : α → State → State} (hk : ∀ v s, k v (f s) = f (k v s))
    (r : Option α) (type : Byte) (n : Nat) (s : State) : onValue r type n k (f s) = f (onValue r type n k s) := by
  cases r with
  | none => exact h.event _ s rfl
  | some v => exact hk v s

theorem dispatch_comm (h : CommutesWithFrames P f) (dest type : Byte) (p : List Byte) (s : State) :
    dispatch P dest type p (f s) = f (dispatch P dest type p s) := by
  unfold dispatch
  split_ifs
  · refine h.onValue_comm (fun v s => ?_) ..
    rw [acceptChannels, h.channels, h.fed]
    exact h.event _ _ rfl
  · refine h.onValue_comm (fun ls s => ?_) ..
    rw [acceptLink, h.linkStats]
    exact h.event _ _ rfl
  · exact h.onValue_comm (fun x s => h.event _ s rfl) ..
  · exact h.onValue_comm (fun x s => h.event _ s rfl) ..
  · exact h.onValue_comm (fun x s => h.event _ s rfl) ..
  · exact h.onValue_comm (fun x s => h.event _ s rfl) ..
  · exact (congrArg _ (h.event _ s rfl)).trans (h.event _ _ rfl)

theorem judge_comm (h : CommutesWithFrames P f) (dest type : Byte) (p : List Byte) (c r : Byte) (s : State) :
    judge P dest type p c r (f s) = f (judge P dest type p c r s) := by
  simp only [judge, h.cfg, h.dispatch_comm, apply_ite f]
  rw [show raise _ (f s) = f (raise _ s) from h.event (.errCrcMismatch c r) s rfl]

end CommutesWithFrames

/-! ## Bytes that wait (R100, R101, R108) -/

theorem commutesWithFrames_keepAtSource (P : Params) (bs : List Byte) : CommutesWithFrames P (keepAtSource bs) :=
  ⟨fun _ => rfl, fun _ _ _ => rfl, fun _ _ => rfl, fun _ _ => rfl, fun _ => rfl⟩

@[simp] theorem keepAtSource_nil (s : State) : keepAtSource [] s = s := by simp [keepAtSource]

theorem keepAtSource_append (xs ys : List Byte) (s : State) :
    keepAtSource (xs ++ ys) s = keepAtSource ys (keepAtSource xs s) := by simp [keepAtSource]

/-- Bytes come to wait at the source after an outcome. -/
def thenWait (bs : List Byte) (x : Out) : Out := andThen x fun t => .next (keepAtSource bs t)

theorem emitFrame_keepAtSource (P : Params) (bs : List Byte) (s : State) :
    emitFrame P (keepAtSource bs s) = thenWait bs (emitFrame P s) := by
  simp only [emitFrame, thenWait, andThen_withValue, (commutesWithFrames_keepAtSource P bs).judge_comm]
  rfl

/-- A step of the sequencer on its byte does not see the bytes that wait. -/
theorem rxStep_keepAtSource (P : Params) (b : Byte) (bs : List Byte) (s : State) :
    rxStep P b (keepAtSource bs s) = thenWait bs (rxStep P b s) := by
  cases hs : s.rxs with
  | seekSync =>
    rw [rxStep_seekSync hs, rxStep_seekSync (s := keepAtSource bs s) hs]
    simp only [rxSeek, thenWait, andThen_next, apply_ite (keepAtSource bs)]
    rfl
  | readLength =>
    rw [rxStep_readLength hs, rxStep_readLength (s := keepAtSource bs s) hs]
    simp only [rxLength, thenWait, andThen_next, apply_ite (keepAtSource bs)]
    rfl
  | awaitBody =>
    rw [rxStep_awaitBody hs, rxStep_awaitBody (s := keepAtSource bs s) hs]
    simp only [rxBody, thenWait, andThen_withValue, keepAtSource_rxbuf, keepAtSource_rxn, keepAtSource_rxlen]
    refine congrArg (withValue _) (funext fun buf => ?_)
    by_cases hlast : s.rxn + 1 = s.rxlen.toNat + 2 <;> simp only [hlast, if_true, if_false]
    · exact emitFrame_keepAtSource P bs (setRxbuf buf s)
    · rfl

/-- A step of the receive agent that has a byte to take, or that has to wait for `INIT`, does not see bytes that come to
wait behind. -/
theorem takeByte_keepAtSource {P : Params} (h : s.inited = false ∨ s.src ≠ []) (bs : List Byte) :
    takeByte P (keepAtSource bs s) = thenWait bs (takeByte P s) := by
  cases hi : s.inited with
  | false => rw [takeByte_waits (.inl hi), takeByte_waits (s := keepAtSource bs s) (.inl hi)]; rfl
  | true =>
    obtain ⟨b, rest, hsrc⟩ := List.exists_cons_of_ne_nil (h.resolve_left (by simp [hi]))
    rw [takeByte_cons hi hsrc, ← rxStep_keepAtSource]
    exact takeByte_cons (s := keepAtSource bs s) hi (by rw [keepAtSource_src, hsrc]; rfl)

theorem exec_rxByte_eq (b : Byte) (s : State) :
    exec (.rxByte b) s = takeByte Config.params (keepAtSource [b] s) := rfl

/-- Bytes presented one after another, each with a step of its own, are the bytes presented at once with as many steps
after it. -/
theorem execAll_rxBytes (bytes : List Byte) (s : State) :
    execAll (bytes.map Instr.rxByte) s = receive Config.params bytes.length (keepAtSource bytes s) := by
  induction bytes generalizing s with
  | nil => rw [keepAtSource_nil]; rfl
  | cons b bs ih =>
    have hwaits : (keepAtSource [b] s).src ≠ [] := by simp
    calc execAll ((b :: bs).map Instr.rxByte) s
      _ = andThen (takeByte Config.params (keepAtSource [b] s)) fun t =>
            receive Config.params bs.length (keepAtSource bs t) := by
          rw [List.map_cons, execAll_cons, exec_rxByte_eq]
          exact congrArg _ (funext ih)
      _ = andThen (takeByte Config.params (keepAtSource bs (keepAtSource [b] s)))
            (receive Config.params bs.length) := by
          rw [takeByte_keepAtSource (.inr hwaits), thenWait, andThen_assoc]
          rfl
      _ = _ := by rw [← receive_succ_eq_andThen, ← keepAtSource_append]; rfl

/-- The chunk's own step is a step of the receive agent, once its bytes wait (log 8). -/
theorem exec_rxChunk {bytes : List Byte} (h : bytes ≠ []) (s : State) :
    exec (.rxChunk bytes) s = takeByte Config.params (keepAtSource bytes s) := by
  show execRxChunk bytes s = _
  rw [execRxChunk, if_neg (by simpa using h)]
  rfl

/-- Draining the source begins with the receive agent's next step, whatever it comes to. -/
theorem andThen_takeByte_drain (P : Params) (s : State) : andThen (takeByte P s) (drain P) = drain P s := by
  cases hsrc : s.src with
  | nil => rw [takeByte_waits (.inr hsrc), andThen_next]
  | cons b rest =>
    cases h : takeByte P s with
    | next t => rw [andThen_next, drain_takeByte h]
    | fault | refused => rw [drain, hsrc, List.length_cons, receive_succ_eq_andThen, h]; rfl

/-- A chunk and the steps that drain the source come to what draining its bytes comes to. -/
theorem drain_rxChunk (bytes : List Byte) (s : State) :
    andThen (exec (.rxChunk bytes) s) (drain Config.params) = drain Config.params (keepAtSource bytes s) := by
  by_cases h : bytes = []
  · subst h
    rw [keepAtSource_nil]
    rfl
  · rw [exec_rxChunk h, andThen_takeByte_drain]

/-- Bytes may come to wait before a chunk's own step or after it. -/
theorem drain_thenWait_rxChunk (xs ys : List Byte) (s : State) :
    andThen (thenWait ys (exec (.rxChunk xs) s)) (drain Config.params) =
      drain Config.params (keepAtSource (xs ++ ys) s) := by
  by_cases h : xs = []
  · subst h
    rfl
  · rw [exec_rxChunk h, ← takeByte_keepAtSource (.inr (by simp [h])), andThen_takeByte_drain, keepAtSource_append]

/-- Settles O23: the bytes of a chunk, of its two parts and of a frame row are the same bytes at the source, and no step
sees the bytes that come to wait behind its own. -/
theorem chunkIsItsBytesInOrder : Obligations.ChunkIsItsBytesInOrder := by
  intro s
  refine ⟨fun bytes => ?_, rfl, fun xs ys => ?_, fun d type p c => exec_frameOfType d type p c s⟩
  · rw [execAll_rxBytes]
    cases bytes with
    | nil => rw [keepAtSource_nil]; rfl
    | cons b bs => rw [exec_rxChunk (List.cons_ne_nil b bs), List.length_cons, receive_succ_eq_andThen]; rfl
  · rw [drain_rxChunk, ← drain_thenWait_rxChunk, execAll_pair, thenWait, andThen_assoc, andThen_assoc]
    exact congrArg _ (funext (drain_rxChunk ys))

/-- Settles O25: presented bytes wait behind the others, and a step takes the first of all or none. -/
theorem bytesWaitForInit : Obligations.BytesWaitForInit := by
  intro s
  refine ⟨fun hi => ?_, fun hi => ?_⟩
  · have hwait : ∀ bs, takeByte Config.params (keepAtSource bs s) = .next (keepAtSource bs s) :=
      fun bs => takeByte_waits (.inl hi)
    refine ⟨fun b => hwait [b], fun bytes => ?_, fun d type p c => ?_, takeByte_waits (.inl hi)⟩
    · by_cases h : bytes = []
      · subst h
        exact congrArg Host.Outcome.next (keepAtSource_nil s).symm
      · exact (exec_rxChunk h s).trans (hwait bytes)
    · exact (exec_frameOfType d type p c s).trans (hwait _)
  · refine ⟨fun b => rfl, fun bytes h => exec_rxChunk h s, fun h => takeByte_waits (.inr h), fun t h => ?_⟩
    rcases takeByte_next h with ⟨hw, rfl⟩ | ⟨-, b, rest, hsrc, hrx⟩
    · rw [hw.resolve_left (by simp [hi])]
      rfl
    · rw [hsrc]
      exact (rxStep_outside hrx).src

/-! ## Whole frames (R110, R111) -/

theorem judge_matching (P : Params) (dest type : Byte) (p : List Byte) (c : Byte) (s : State) :
    judge P dest type p c c s = dispatch P dest type p s := by
  simp [judge]

/-- Settles O26: the receiver computes the checksum the frame was given. -/
theorem encodedFrameIsDispatchedOnce : Obligations.EncodedFrameIsDispatchedOnce := by
  intro s d type p hp
  refine ⟨fun P rest hi hs htable => ?_, fun h => ?_⟩
  · dsimp only
    rw [length_frameBytes, ← judge_matching P (dval P d) type p (crcBitwise s.cfg.poly (type :: p))]
    exact receive_frame (s := setSource _ s) hi hs hp rfl (crcSum_table htable _)
  · have hu := h.offer_frame d type p (crcBitwise s.cfg.poly (type :: p)) (P := Config.params)
    refine ⟨_, hu, ?_⟩
    rw [h.drain_frame hp hu, judge_matching]
    rfl

theorem EngineInv.assembleFrame_eq (h : EngineInv s) (hi : s.inited = true) (dest type : Byte) (p : List Byte) :
    assembleFrame s.table dest type p =
      .ok ([dest, BitVec.ofNat 8 (p.length + 2), type] ++ p ++ [crcBitwise s.cfg.poly (type :: p)]) := by
  rw [assembleFrame, crcSum_table (h.tableBuilt hi)]

/-- Settles O35: the limit, and the frame with the checksum the table gives. -/
theorem frameEncodeBuildsTheFrame : Obligations.FrameEncodeBuildsTheFrame := by
  intro s dest type p h hi
  have hmax : Config.maxPayload = 60 := rfl
  show (_ → execFrameEncode dest type p s = _) ∧ (_ → execFrameEncode dest type p s = _)
  rw [execFrameEncode, if_neg (by simp [hi]), hmax]
  refine ⟨fun hp => ?_, fun hp => if_pos hp⟩
  rw [if_neg (by omega), h.assembleFrame_eq hi]
  rfl

/-- Settles O36: the fault of `FRAME_ENCODE`, and the values the reads of any offset hand back. -/
theorem unitOperationsOutsideTheirPreconditions : Obligations.UnitOperationsOutsideTheirPreconditions :=
  ⟨fun _ _ _ _ hi => if_pos hi,
    fun b o => ⟨beRead16 b o, beRead24 b o, beRead32 b o, fun _ => ⟨rfl, rfl, rfl, rfl, rfl, rfl⟩⟩⟩

/-! ## No step of the hardware stops (R101, R214, R242) -/

theorem EngineInv.rxStep_completes (h : EngineInv s) (hi : s.inited = true) (b : Byte) :
    ∃ t, rxStep Config.params b s = .next t := by
  cases hs : s.rxs with
  | seekSync => exact ⟨_, rxStep_seekSync hs⟩
  | readLength => exact ⟨_, rxStep_readLength hs⟩
  | awaitBody =>
    have hbounds := h.bodyBounds hs
    by_cases hlast : s.rxn + 1 = s.rxlen.toNat + 2
    · obtain ⟨d, type, p, -, -, hstep⟩ := h.rxStep_lastByte hi hs hlast b
      exact ⟨_, hstep⟩
    · exact ⟨_, rxStep_storeBody hs (by omega) hlast⟩

theorem EngineInv.takeByte_completes (h : EngineInv s) : ∃ t, takeByte Config.params s = .next t := by
  cases hi : s.inited with
  | false => exact ⟨s, takeByte_waits (.inl hi)⟩
  | true =>
    cases hsrc : s.src with
    | nil => exact ⟨s, takeByte_waits (.inr hsrc)⟩
    | cons b rest =>
      rw [takeByte_cons hi hsrc]
      exact (setSource_inv rest h).rxStep_completes hi b

theorem EngineInv.offer_completes (h : EngineInv s) (bs : List Byte) : ∃ t, offer Config.params bs s = .next t :=
  (keepAtSource_inv bs h).takeByte_completes

theorem EngineInv.sendFrame_completes (h : EngineInv s) (op : BitVec 6) (d : Dest) (type : Byte) (p : List Byte) :
    ∃ t, sendFrame Config.params op d type p s = .next t := by
  have hmax : Config.maxPayload = 60 := rfl
  cases hi : s.inited with
  | false => exact ⟨_, if_pos hi⟩
  | true =>
    by_cases hp : p.length ≤ 60
    · refine ⟨_, sendFrame_of_frame hi hp (h.assembleFrame_eq hi _ type p) ?_⟩
      simp only [List.length_append, List.length_cons, List.length_nil]
      omega
    · exact ⟨_, (if_neg (by simp [hi])).trans (if_pos (by omega))⟩

theorem EngineInv.sendPacked_completes (h : EngineInv s) (op : BitVec 6) (d : Dest) (type : Byte)
    (p : Option (List Byte)) : ∃ t, sendPacked Config.params op d type p s = .next t := by
  cases hi : s.inited with
  | false => exact ⟨_, if_pos hi⟩
  | true =>
    have hready : ¬s.inited = false := by simp [hi]
    cases p with
    | none => exact ⟨_, if_neg hready⟩
    | some p =>
      obtain ⟨t, ht⟩ := h.sendFrame_completes op d type p
      exact ⟨t, (if_neg hready).trans ht⟩

/-- Every operation that is a step of an agent completes in a sound state. -/
theorem EngineInv.exec_completes {i : Instr} (h : EngineInv s) (hagent : agentStep i = true) :
    ∃ t, exec i s = .next t := by
  cases i
  case gps | battery | rpm | temp | link | channels | generic | rxByte => exact h.offer_completes _
  case rxChunk bytes =>
    by_cases hb : bytes = []
    · subst hb
      exact ⟨s, rfl⟩
    · rw [exec_rxChunk hb]
      exact h.offer_completes bytes
  case sendBattery | sendGps => exact h.sendFrame_completes ..
  case sendRpm | sendTemp => exact h.sendPacked_completes ..
  case init | receiveChannels | getLinkStatistics | isFailsafe | reservedOp | tick => exact ⟨_, rfl⟩
  all_goals exact nomatch hagent

/-- Settles O9: a reset, a step of the receive agent and each agent's operation complete in a sound state, and
`agentNext` leaves no other entry. -/
theorem agentStepsNeverStop : Obligations.AgentStepsNeverStop := by
  intro s h hnext
  cases hin : s.inbox with
  | nil =>
    rw [step_of_nil hin]
    exact h.takeByte_completes
  | cons e rest =>
    have hrest := setInbox_inv rest h
    rw [step_of_cons hin]
    cases e with
    | reset => exact ⟨_, rfl⟩
    | receive => exact hrest.takeByte_completes
    | request port bytes =>
      cases hdec : decode Config.params port bytes with
      | error e => simp [agentNext, hin, hdec] at hnext
      | ok i =>
        rw [runEntry_of_decoded hdec]
        exact hrest.exec_completes (agentStep_of_agentNext hin hdec hnext)

/-! ## The cursor algorithm (R107) -/

/-- What the accepted frames of an input leave: the state without the sequencer's own registers and buffer, the bytes
that wait and the events of the scan. -/
def accepted (s : State) : State :=
  { s with
    rxs := .seekSync, rxn := 0, rxlen := 0, rxbuf := [], src := [], ev := s.ev.filter fun e => !scanEvent e }

theorem commutesWithFrames_accepted (P : Params) : CommutesWithFrames P accepted where
  cfg _ := rfl
  event e s he := by simp [accepted, emitEvent, he]
  channels _ _ := rfl
  linkStats _ _ := rfl
  fed _ := rfl

theorem accepted_raise {e : Event} (he : scanEvent e = true) (s : State) : accepted (raise e s) = accepted s := by
  simp [accepted, raise, he]

section
variable {P : Params}

/-! The branches of the cursor's scan. -/

theorem cursorRun_skip {n : Nat} {b : Byte} {rest : List Byte} (hb : isDest P b = false) (s : State) :
    cursorRun P (n + 1) (b :: rest) s = cursorRun P n rest s := by
  simp [cursorRun, hb]

theorem cursorRun_destAlone {n : Nat} {dest : Byte} (hd : isDest P dest = true) (s : State) :
    cursorRun P (n + 1) [dest] s = s := by
  simp [cursorRun, hd]

theorem lengthOutside_iff {n : Nat} : n < Config.minLen ∨ Config.maxLen < n ↔ ¬(2 ≤ n ∧ n ≤ 62) := by
  rw [Config.minLen, Config.maxLen]
  omega

theorem cursorRun_badLength {n : Nat} {dest len : Byte} {body : List Byte} (hd : isDest P dest = true)
    (hlen : ¬(2 ≤ len.toNat ∧ len.toNat ≤ 62)) (s : State) :
    cursorRun P (n + 1) (dest :: len :: body) s = cursorRun P n (len :: body) s := by
  simp only [cursorRun, hd, if_true, if_pos (lengthOutside_iff.mpr hlen)]

theorem cursorRun_incomplete {n : Nat} {dest len : Byte} {body : List Byte} (hd : isDest P dest = true)
    (hlo : 2 ≤ len.toNat) (hhi : len.toNat ≤ 62) (hshort : body.length < len.toNat) (s : State) :
    cursorRun P (n + 1) (dest :: len :: body) s = s := by
  simp only [cursorRun, hd, if_true, if_neg (lengthOutside_iff.not.mpr (not_not.mpr ⟨hlo, hhi⟩)), if_pos hshort]

theorem cursorRun_frame {n : Nat} {d : Dest} {type c : Byte} {p rest : List Byte} (hp : p.length ≤ 60) (s : State) :
    cursorRun P (n + 1) (frameBytes P d type p c ++ rest) s =
      cursorRun P n rest (judge P (dval P d) type p (crcBitwise s.cfg.poly (type :: p)) c s) := by
  have hlen := toNat_lengthByte hp
  have hin : ¬(p.length + 2 < Config.minLen ∨ Config.maxLen < p.length + 2) := by
    rw [lengthOutside_iff]
    omega
  have hwhole : ¬(type :: p ++ c :: rest).length < p.length + 2 := by simp
  simp only [frameBytes_append, cursorRun, isDest_dval, if_true, hlen, if_neg hin, if_neg hwhole]
  simp [byteAt]

/-- Enough bytes after a destination and a length in 2..62 are a frame and what follows it. -/
theorem exists_frameBytes {dest len : Byte} {body : List Byte} (hd : isDest P dest = true) (hlo : 2 ≤ len.toNat)
    (hhi : len.toNat ≤ 62) (hlong : len.toNat ≤ body.length) :
    ∃ (d : Dest) (type : Byte) (p : List Byte) (c : Byte) (rest : List Byte), p.length ≤ 60 ∧
      dest :: len :: body = frameBytes P d type p c ++ rest := by
  obtain ⟨d, rfl⟩ := exists_dval_of_isDest hd
  obtain ⟨type, tail, rfl⟩ := List.exists_cons_of_length_pos (l := body) (by omega)
  obtain ⟨p, ctail, rfl, hp⟩ : ∃ p ctail, tail = p ++ ctail ∧ p.length = len.toNat - 2 :=
    ⟨_, _, (List.take_append_drop (len.toNat - 2) tail).symm, List.length_take_of_le (by simp at hlong; omega)⟩
  obtain ⟨c, rest, rfl⟩ := List.exists_cons_of_length_pos (l := ctail) (by simp at hlong; omega)
  refine ⟨d, type, p, c, rest, by omega, ?_⟩
  rw [frameBytes_append, hp, Nat.sub_add_cancel hlo, BitVec.ofNat_toNat, BitVec.setWidth_eq]
  rfl

/-- The branches of the cursor algorithm, as shapes of its input. -/
inductive ScanCase (P : Params) : List Byte → Prop where
  | empty : ScanCase P []
  | skip (b : Byte) (rest : List Byte) (hb : isDest P b = false) : ScanCase P (b :: rest)
  | destAlone (dest : Byte) (hd : isDest P dest = true) : ScanCase P [dest]
  | badLength (dest len : Byte) (body : List Byte) (hd : isDest P dest = true)
      (hlen : ¬(2 ≤ len.toNat ∧ len.toNat ≤ 62)) : ScanCase P (dest :: len :: body)
  | incomplete (dest len : Byte) (body : List Byte) (hd : isDest P dest = true) (hlo : 2 ≤ len.toNat)
      (hhi : len.toNat ≤ 62) (hshort : body.length < len.toNat) : ScanCase P (dest :: len :: body)
  | frame (d : Dest) (type : Byte) (p : List Byte) (c : Byte) (rest : List Byte) (hp : p.length ≤ 60) :
      ScanCase P (frameBytes P d type p c ++ rest)

theorem scanCase (P : Params) (bytes : List Byte) : ScanCase P bytes := by
  rcases bytes with _ | ⟨dest, rest⟩
  · exact .empty
  cases hd : isDest P dest with
  | false => exact .skip dest rest hd
  | true =>
    rcases rest with _ | ⟨len, body⟩
    · exact .destAlone dest hd
    by_cases hlen : 2 ≤ len.toNat ∧ len.toNat ≤ 62
    · obtain ⟨hlo, hhi⟩ := hlen
      by_cases hshort : body.length < len.toNat
      · exact .incomplete dest len body hd hlo hhi hshort
      · obtain ⟨d, type, p, c, rest, hp, hbytes⟩ := exists_frameBytes hd hlo hhi (Nat.not_lt.mp hshort)
        rw [hbytes]
        exact .frame d type p c rest hp
    · exact .badLength dest len body hd hlen

/-- The cursor algorithm neither reads nor overwrites the sequencer's own registers, and raises no event of the scan. -/
theorem cursorRun_accepted (n : Nat) (bytes : List Byte) (s : State) :
    cursorRun P n bytes (accepted s) = accepted (cursorRun P n bytes s) := by
  induction n generalizing bytes s with
  | zero => rfl
  | succ n ih =>
    cases scanCase P bytes with
    | empty => rfl
    | skip b rest hb => rw [cursorRun_skip hb, cursorRun_skip hb, ih]
    | destAlone dest hd => rw [cursorRun_destAlone hd, cursorRun_destAlone hd]
    | badLength dest len body hd hlen => rw [cursorRun_badLength hd hlen, cursorRun_badLength hd hlen, ih]
    | incomplete dest len body hd hlo hhi hshort =>
      rw [cursorRun_incomplete hd hlo hhi hshort, cursorRun_incomplete hd hlo hhi hshort]
    | frame d type p c rest hp =>
      rw [cursorRun_frame hp, cursorRun_frame hp, (commutesWithFrames_accepted P).judge_comm, ih]
      rfl

/-! ## The sequencer over a whole input -/

theorem rxLength_skip {b : Byte} (hlen : ¬(2 ≤ b.toNat ∧ b.toNat ≤ 62)) (hb : isDest P b = false) (s : State) :
    rxLength P b s = seekAgain (raise (.errBadLength b) s) := by
  simp [rxLength, hlen, hb]

theorem rxLength_sync {b : Byte} (hlen : ¬(2 ≤ b.toNat ∧ b.toNat ≤ 62)) (hb : isDest P b = true) (s : State) :
    rxLength P b s = holdSync b (raise (.errBadLength b) s) := by
  simp [rxLength, hlen, hb]

/-- A receive agent that seeks, with the bytes of an input waiting for it. -/
structure SeekingOver (bytes : List Byte) (s : State) : Prop where
  inited : s.inited = true
  seeking : s.rxs = .seekSync
  table : s.table = crcTable s.cfg.poly
  source : s.src = bytes

/-- How a receive agent that seeks and the cursor go through an input together: they finish it, or come to a shorter
rest of it, the agent seeking again, with the same frames accepted. -/
inductive InStep (P : Params) (n : Nat) (bytes : List Byte) (s : State) : Prop where
  | finished (t : State) (hrun : receive P bytes.length s = .next t)
      (hcursor : accepted t = cursorRun P n bytes (accepted s))
  | goesOn (m : Nat) (rest : List Byte) (t : State) (hm : m < n) (hlen : rest.length ≤ m) (hseek : SeekingOver rest t)
      (hrun : receive P bytes.length s = receive P rest.length t)
      (hcursor : cursorRun P n bytes (accepted s) = cursorRun P m rest (accepted t))

namespace SeekingOver

variable {n : Nat} {dest len : Byte} {rest body : List Byte}

theorem inStep_empty (P : Params) (n : Nat) (s : State) : InStep P n [] s :=
  .finished s rfl (by cases n <;> rfl)

/-- R102: a byte that is no destination is skipped. -/
theorem inStep_skip (h : SeekingOver (dest :: rest) s) (hn : rest.length ≤ n) (hd : isDest P dest = false) :
    InStep P (n + 1) (dest :: rest) s := by
  have htake : takeByte P s = .next (raise (.errDesyncSkip dest) (setSource rest s)) :=
    (takeByte_cons h.inited h.source).trans <| (rxStep_seekSync (s := setSource rest s) h.seeking).trans
      (by simp [rxSeek, hd])
  refine .goesOn n rest (raise (.errDesyncSkip dest) (setSource rest s)) (Nat.lt_succ_self n) hn
    ⟨h.inited, h.seeking, h.table, rfl⟩ (receive_succ htake) ?_
  rw [cursorRun_skip hd, accepted_raise rfl]
  rfl

/-- R102: a destination is held. -/
theorem takeByte_dest (h : SeekingOver (dest :: rest) s) (hd : isDest P dest = true) :
    takeByte P s = .next (holdSync dest (setSource rest s)) :=
  (takeByte_cons h.inited h.source).trans (rxStep_holdSync (s := setSource rest s) h.seeking hd)

theorem inStep_destAlone (h : SeekingOver [dest] s) (hd : isDest P dest = true) : InStep P (n + 1) [dest] s :=
  .finished _ ((receive_one P s).trans (h.takeByte_dest hd)) (cursorRun_destAlone hd _).symm

/-- R103: a bad length that is no destination is skipped. -/
theorem inStep_badLength_skip (h : SeekingOver (dest :: len :: body) s) (hn : body.length ≤ n)
    (hd : isDest P dest = true) (hlen : ¬(2 ≤ len.toNat ∧ len.toNat ≤ 62)) (hl : isDest P len = false) :
    InStep P (n + 2) (dest :: len :: body) s := by
  have htake : takeByte P (holdSync dest (setSource (len :: body) s)) =
      .next (seekAgain (raise (.errBadLength len) (holdSync dest (setSource body s)))) :=
    (takeByte_cons (by exact h.inited) rfl).trans <| (rxStep_readLength rfl).trans <|
      congrArg _ (rxLength_skip hlen hl _)
  refine .goesOn n body (seekAgain (raise (.errBadLength len) (holdSync dest (setSource body s)))) (by omega) hn
    ⟨h.inited, rfl, h.table, rfl⟩
    ((receive_succ (h.takeByte_dest hd)).trans (receive_succ htake)) ?_
  rw [cursorRun_badLength hd hlen, cursorRun_skip hl]
  exact congrArg _ (accepted_raise (e := .errBadLength len) rfl s).symm

/-- R103: a bad length that is a destination is held in its place, as if the agent had gone back to seek it. -/
theorem inStep_badLength_sync (h : SeekingOver (dest :: len :: body) s) (hn : body.length + 1 ≤ n)
    (hd : isDest P dest = true) (hlen : ¬(2 ≤ len.toNat ∧ len.toNat ≤ 62)) (hl : isDest P len = true) :
    InStep P (n + 1) (dest :: len :: body) s := by
  have hheld := h.takeByte_dest hd
  have hseek : SeekingOver (len :: body) (seekAgain (raise (.errBadLength len)
      (holdSync dest (setSource (len :: body) s)))) := ⟨h.inited, rfl, h.table, rfl⟩
  have htake : takeByte P (holdSync dest (setSource (len :: body) s)) =
      takeByte P (seekAgain (raise (.errBadLength len) (holdSync dest (setSource (len :: body) s)))) := by
    rw [hseek.takeByte_dest hl, takeByte_cons (by exact h.inited) rfl, rxStep_readLength rfl, rxLength_sync hlen hl]
    rfl
  refine .goesOn n (len :: body) _ (Nat.lt_succ_self n) hn hseek ?_ ?_
  · rw [List.length_cons, receive_succ hheld, List.length_cons, receive_succ_eq_andThen, htake,
      ← receive_succ_eq_andThen]
  · rw [cursorRun_badLength hd hlen]
    exact congrArg _ (accepted_raise (e := .errBadLength len) rfl s).symm

/-- R104: a body that is not whole leaves the sequencer inside the frame, where the cursor defers. -/
theorem inStep_incomplete (h : SeekingOver (dest :: len :: body) s) (hd : isDest P dest = true)
    (hlo : 2 ≤ len.toNat) (hhi : len.toNat ≤ 62) (hshort : body.length < len.toNat) :
    InStep P (n + 1) (dest :: len :: body) s := by
  have hheader := receive_header h.inited h.seeking hd hlo hhi h.source
  have hbody := receive_body (P := P) (s := headerHeld dest len body s) (bs := body) (rest := []) h.inited rfl hhi
    (List.append_nil body).symm (by simp only [headerHeld]; omega)
  refine .finished (bodyStored body [] (headerHeld dest len body s)) ?_ (cursorRun_incomplete hd hlo hhi hshort _).symm
  rw [show (dest :: len :: body).length = 2 + body.length by simp only [List.length_cons]; omega,
    receive_add_of_next hheader, hbody]

/-- R104 to R106: a whole frame is judged once, by the same checksum. -/
theorem inStep_frame {d : Dest} {type c : Byte} {p : List Byte} (h : SeekingOver (frameBytes P d type p c ++ rest) s)
    (hn : (frameBytes P d type p c ++ rest).length ≤ n + 1) (hp : p.length ≤ 60) :
    InStep P (n + 1) (frameBytes P d type p c ++ rest) s := by
  have hrun := receive_frame h.inited h.seeking hp h.source (crcSum_table h.table _)
  have hdid := judge_did P (dval P d) type p (crcBitwise s.cfg.poly (type :: p)) c
    { frameTaken (frameBytes P d type p c) s with rxn := 0, src := rest }
  rw [List.length_append, length_frameBytes] at hn
  refine .goesOn n rest _ (Nat.lt_succ_self n) (by omega) ⟨hdid.outside.inited.trans h.inited,
    hdid.sequencer.rxs.trans h.seeking, ?_, hdid.outside.src⟩ ?_ ?_
  · rw [hdid.outside.table, hdid.outside.cfg]
    exact h.table
  · rw [List.length_append, length_frameBytes, receive_add_of_next hrun]
  · rw [cursorRun_frame hp, ← (commutesWithFrames_accepted P).judge_comm]
    rfl

/-- One stage of the scan, by the branches of the cursor algorithm. -/
theorem inStep {bytes : List Byte} (h : SeekingOver bytes s) (hn : bytes.length ≤ n) : InStep P n bytes s := by
  rcases n with _ | n
  · obtain rfl := List.length_eq_zero_iff.mp (Nat.le_zero.mp hn)
    exact inStep_empty P 0 s
  cases scanCase P bytes with
  | empty => exact inStep_empty P _ s
  | skip b rest hb => exact h.inStep_skip (Nat.le_of_succ_le_succ hn) hb
  | destAlone dest hd => exact h.inStep_destAlone hd
  | badLength dest len body hd hlen =>
    have hn : body.length + 1 ≤ n := Nat.le_of_succ_le_succ hn
    cases hl : isDest P len with
    | true => exact h.inStep_badLength_sync hn hd hlen hl
    | false =>
      obtain ⟨n, rfl⟩ := Nat.exists_eq_add_one_of_ne_zero (n := n) (by omega)
      exact h.inStep_badLength_skip (Nat.le_of_succ_le_succ hn) hd hlen hl
  | incomplete dest len body hd hlo hhi hshort => exact h.inStep_incomplete hd hlo hhi hshort
  | frame d type p c rest hp => exact h.inStep_frame hn hp

/-- R107: over a whole input the sequencer and the cursor accept the same frames. -/
theorem receive_accepts {bytes : List Byte} (h : SeekingOver bytes s) (hn : bytes.length ≤ n) :
    ∃ t, receive P bytes.length s = .next t ∧ accepted t = cursorRun P n bytes (accepted s) := by
  induction n using Nat.strong_induction_on generalizing bytes s with
  | _ n ih =>
    cases h.inStep (P := P) hn with
    | finished t hrun hcursor => exact ⟨t, hrun, hcursor⟩
    | goesOn m rest u hm hlen hseek hrun hcursor =>
      rw [hrun, hcursor]
      exact ih m hm hseek hlen

end SeekingOver

end

/-- Settles O24: draining the chunk's bytes accepts what the cursor accepts over them. -/
theorem sequencerMatchesTheCursor : Obligations.SequencerMatchesTheCursor := by
  intro bytes s h
  have hseek : SeekingOver bytes (keepAtSource bytes s) :=
    ⟨h.inited, h.seeking, h.sound.tableBuilt h.inited, by simp [h.sourceEmpty]⟩
  obtain ⟨t, hrun, hcursor⟩ := hseek.receive_accepts (P := Config.params) (Nat.le_refl _)
  have hdrain : andThen (exec (.rxChunk bytes) s) (drain Config.params) = .next t := by
    rw [drain_rxChunk, drain, hseek.source, hrun]
  obtain ⟨u, hexec, hu⟩ := andThen_eq_next.mp hdrain
  have hsame : accepted t = accepted (cursorRun Config.params bytes.length bytes s) :=
    hcursor.trans (cursorRun_accepted bytes.length bytes s)
  have hfield : ∀ {α : Type} (f : State → α), f (accepted t) = f (accepted (cursorRun _ bytes.length bytes s)) :=
    fun f => congrArg f hsame
  exact ⟨u, t, hexec, hu, hfield State.ch, hfield State.ls, hfield State.fs, hfield State.wdtArmed,
    hfield State.wdtCnt, hfield State.ev, hfield State.tx, hfield State.res⟩

end Sys2Proof.Machine

/-! PROOFS. Channel words (42_bit_unpacker.md): a row of words as one number, the windows of bits of that number, and the
two codecs on it, by the number and by the spec's byte tables. -/

namespace Sys2Proof.Machine

section

variable {k m : Nat}

/-! ## A row of words as one number (R43) -/

theorem leNat_cons_eq_or (x : BitVec k) (xs : List (BitVec k)) : leNat (x :: xs) = x.toNat ||| leNat xs <<< k := by
  rw [leNat, Nat.add_comm, Nat.two_pow_add_eq_or_of_lt x.isLt, Nat.or_comm, Nat.shiftLeft_eq, Nat.mul_comm]

theorem leNat_cons_shiftRight (x : BitVec k) (xs : List (BitVec k)) : leNat (x :: xs) >>> k = leNat xs := by
  rw [leNat_cons_eq_or, Nat.shiftRight_or_distrib, Nat.shiftLeft_shiftRight, Nat.shiftRight_eq_div_pow,
    Nat.div_eq_of_lt x.isLt, Nat.zero_or]

theorem leNat_eq_sum (xs : List (BitVec k)) :
    leNat xs = ∑ j ∈ Finset.range xs.length, (xs.getD j 0).toNat * 2 ^ (k * j) := by
  induction xs with
  | nil => rfl
  | cons x xs ih =>
    have hstep (j : Nat) : ((x :: xs).getD (j + 1) 0).toNat * 2 ^ (k * (j + 1)) =
        2 ^ k * ((xs.getD j 0).toNat * 2 ^ (k * j)) := by
      rw [List.getD_cons_succ, Nat.mul_succ, Nat.pow_add]
      ring
    rw [leNat, ih, List.length_cons, Finset.sum_range_succ', Finset.mul_sum, Finset.sum_congr rfl fun j _ => hstep j]
    simp [Nat.add_comm]

/-- R43: from the start of word `j` on: that word, and the words after it. -/
theorem leNat_shiftRight_word (xs : List (BitVec k)) (j : Nat) :
    leNat xs >>> (k * j) = (xs.getD j 0).toNat ||| leNat xs >>> (k * (j + 1)) <<< k := by
  induction xs generalizing j with
  | nil => simp [leNat]
  | cons x xs ih =>
    have hskip (n : Nat) : leNat (x :: xs) >>> (k * (n + 1)) = leNat xs >>> (k * n) := by
      rw [Nat.mul_succ, Nat.add_comm, Nat.shiftRight_add, leNat_cons_shiftRight]
    rw [hskip]
    cases j with
    | zero => exact leNat_cons_eq_or x xs
    | succ j => rw [hskip, ih, List.getD_cons_succ]

/-! ## Windows of bits of the number -/

theorem toNat_digit (k N i : Nat) : (digit k N i).toNat = N / 2 ^ (k * i) % 2 ^ k := by
  rw [digit, BitVec.toNat_ofNat, Nat.shiftRight_eq_div_pow]

/-- Bits from `m` on play no part in an `m`-bit value. -/
theorem ofNat_or_shiftLeft {a b n : Nat} (h : m ≤ n) : BitVec.ofNat m (a ||| b <<< n) = BitVec.ofNat m a := by
  refine BitVec.eq_of_getLsbD_eq fun i hi => ?_
  have hlow : ¬n ≤ i := by omega
  simp [BitVec.getLsbD_ofNat, Nat.testBit_shiftLeft, hlow]

variable {xs : List (BitVec k)} {i j s : Nat}

/-- A window that ends before word `j + 3`. -/
theorem digit_leNat_three (h : m * i = k * j + s) (hs : s ≤ k) (hm : s + m ≤ 3 * k) :
    digit m (leNat xs) i =
      BitVec.ofNat m ((xs.getD j 0).toNat >>> s ||| (xs.getD (j + 1) 0).toNat <<< (k - s)
        ||| (xs.getD (j + 2) 0).toNat <<< (2 * k - s)) := by
  have hlast : k + k - s = 2 * k - s := by omega
  rw [digit, h, Nat.shiftRight_add, leNat_shiftRight_word xs j, leNat_shiftRight_word xs (j + 1),
    leNat_shiftRight_word xs (j + 2)]
  simp (disch := omega) only [Nat.shiftLeft_or_distrib, Nat.shiftRight_or_distrib, ← Nat.shiftLeft_add,
    ← Nat.shiftLeft_sub, ← Nat.or_assoc, hlast]
  exact ofNat_or_shiftLeft (by omega)

/-- A window that ends before word `j + 2`. -/
theorem digit_leNat_two (h : m * i = k * j + s) (hs : s ≤ k) (hm : s + m ≤ 2 * k) :
    digit m (leNat xs) i =
      BitVec.ofNat m ((xs.getD j 0).toNat >>> s ||| (xs.getD (j + 1) 0).toNat <<< (k - s)) := by
  rw [digit_leNat_three h hs (by omega), ofNat_or_shiftLeft (by omega)]

/-- A window that ends before word `j + 1`. -/
theorem digit_leNat_one (h : m * i = k * j + s) (hm : s + m ≤ k) :
    digit m (leNat xs) i = BitVec.ofNat m ((xs.getD j 0).toNat >>> s) := by
  rw [digit_leNat_two h (by omega) (by omega), ofNat_or_shiftLeft (by omega)]

/-! ## Cutting and joining are inverse -/

theorem digit_leNat (xs : List (BitVec k)) (i : Nat) : digit k (leNat xs) i = xs.getD i 0 := by
  rw [digit_leNat_one (s := 0) rfl (by omega), Nat.shiftRight_zero, BitVec.ofNat_toNat, BitVec.setWidth_eq]

theorem map_digit_leNat {n : Nat} (h : xs.length = n) : (List.range n).map (digit k (leNat xs)) = xs := by
  refine List.ext_getElem (by simp [h]) fun i _ hi => ?_
  rw [List.getElem_map, List.getElem_range, digit_leNat, List.getD_eq_getElem _ _ hi]

theorem leNat_map_digit (k N n : Nat) : leNat ((List.range n).map (digit k N)) = N % 2 ^ (k * n) := by
  induction n generalizing N with
  | zero => simp [leNat, Nat.mod_one]
  | succ n ih =>
    have hshift (i : Nat) : digit k N (i + 1) = digit k (N >>> k) i := by
      rw [digit, digit, ← Nat.shiftRight_add, Nat.mul_succ, Nat.add_comm]
    calc leNat ((List.range (n + 1)).map (digit k N))
      _ = (digit k N 0).toNat + 2 ^ k * leNat ((List.range n).map (digit k (N >>> k))) := by
        rw [List.range_succ_eq_map, List.map_cons, List.map_map, leNat, ← funext hshift]
        rfl
      _ = N % 2 ^ k + 2 ^ k * (N / 2 ^ k % 2 ^ (k * n)) := by
        rw [ih, toNat_digit, Nat.shiftRight_eq_div_pow, Nat.mul_zero, Nat.pow_zero, Nat.div_one]
      _ = N % 2 ^ (k * (n + 1)) := by rw [Nat.mul_succ, Nat.add_comm (k * n), Nat.pow_add, Nat.mod_mul]

/-- Words of another width cut from the number, as many bits in all, keep the number. -/
theorem leNat_recut {n : Nat} (h : m * n = k * xs.length) :
    leNat ((List.range n).map (digit m (leNat xs))) = leNat xs := by
  rw [leNat_map_digit, h, ← leNat_map_digit, map_digit_leNat rfl]

end

/-! ## The codecs by the number (R120, R122, R123, R124) -/

theorem toList_vecOf {α : Type} (n : Nat) (f : Nat → α) : (vecOf n f).toList = (List.range n).map f := rfl

theorem getD_map_range {α : Type} (f : Nat → α) (d : α) {n i : Nat} (h : i < n) :
    ((List.range n).map f).getD i d = f i := by
  simp [h]

theorem toNat_clamp11 (x : BitVec 16) : (clamp11 x).toNat = min x.toNat 2047 := by
  unfold clamp11
  split
  next h => exact (Nat.min_eq_right (Nat.le_of_lt h)).symm
  next h =>
    rw [BitVec.toNat_setWidth]
    omega

/-- Eleven bits are never clamped. -/
theorem clamp11_setWidth (x : BitVec 11) : clamp11 (x.setWidth 16) = x := by
  apply BitVec.eq_of_toNat_eq
  rw [toNat_clamp11, BitVec.toNat_setWidth]
  omega

theorem getD_map_clamp11 (v : List (BitVec 16)) (i : Nat) : (v.map clamp11).getD i 0 = clamp11 (v.getD i 0) :=
  List.getD_map v 0 clamp11

theorem leNat_chPack (v : Vector (BitVec 16) 16) : leNat (chPack v) = leNat (vecMap clamp11 v).toList :=
  leNat_recut (by simp)

theorem leNat_chUnpack {p : List Byte} (h : p.length = 22) : leNat (chUnpack p).toList = leNat p :=
  leNat_recut (by rw [h])

/-- R124 (a), (c). -/
theorem chUnpack_chPack (v : Vector (BitVec 16) 16) : chUnpack (chPack v) = vecMap clamp11 v := by
  apply Vector.toList_inj.mp
  rw [chUnpack, toList_vecOf, leNat_chPack, map_digit_leNat (by simp)]

/-- R124 (b). -/
theorem chPack_chUnpack {p : List Byte} (h : p.length = 22) :
    chPack (vecMap (BitVec.setWidth 16) (chUnpack p)) = p := by
  have hclamp : vecMap clamp11 (vecMap (BitVec.setWidth 16) (chUnpack p)) = chUnpack p := by
    ext1 i hi
    rw [getElem_vecMap, getElem_vecMap, clamp11_setWidth]
  rw [chPack, hclamp, leNat_chUnpack h, map_digit_leNat h]

/-- Settles O37: the windows of the number, which is the sum. -/
theorem chUnpackCutsTheNumber : Obligations.ChUnpackCutsTheNumber := by
  intro p s
  refine ⟨chUnpack p.toList, rfl, fun i hi => ?_⟩
  rw [chUnpack, toList_vecOf, getD_map_range _ _ hi, toNat_digit, leNat_eq_sum, Vector.length_toList]

/-- Settles O38: the windows of the number, whose words are the clamped values. -/
theorem chPackCutsTheNumber : Obligations.ChPackCutsTheNumber := by
  intro v s
  refine ⟨chPack v, rfl, by simp [chPack], fun j hj => ?_⟩
  rw [chPack, getD_map_range _ _ hj, toNat_digit, leNat_eq_sum, Vector.length_toList]
  simp only [toList_vecMap, getD_map_clamp11, toNat_clamp11]

/-- Settles O39: neither codec changes the number, and joining inverts cutting. -/
theorem channelWordsRoundTrip : Obligations.ChannelWordsRoundTrip := by
  refine ⟨fun v i _ => ?_, fun p h => chPack_chUnpack h⟩
  rw [chUnpack_chPack, toList_vecMap, getD_map_clamp11, toNat_clamp11]

/-! ## The codecs by the byte tables (R121, R122) -/

theorem field2_eq_digit {p : List Byte} {j s : Nat} (h : 11 ∣ 8 * j + s) (hs : s ≤ 5) :
    field2 p j s = digit 11 (leNat p) ((8 * j + s) / 11) :=
  (digit_leNat_two (Nat.mul_div_cancel' h) (by omega) (by omega)).symm

theorem field3_eq_digit {p : List Byte} {j s : Nat} (h : 11 ∣ 8 * j + s) (hs : s ≤ 8) :
    field3 p j s = digit 11 (leNat p) ((8 * j + s) / 11) :=
  (digit_leNat_three (Nat.mul_div_cancel' h) hs (by omega)).symm

theorem byteOf1_eq_digit {ws : List (BitVec 11)} {i r : Nat} (h : 8 ∣ 11 * i + r) (hr : r ≤ 3) :
    byteOf1 (ws.getD i 0) r = digit 8 (leNat ws) ((11 * i + r) / 8) :=
  (digit_leNat_one (Nat.mul_div_cancel' h) (by omega)).symm

theorem byteOf2_eq_digit {ws : List (BitVec 11)} {i i' r l : Nat} (h : 8 ∣ 11 * i + r) (hi : i' = i + 1)
    (hl : r + l = 11) : byteOf2 (ws.getD i 0) r (ws.getD i' 0) l = digit 8 (leNat ws) ((11 * i + r) / 8) := by
  obtain rfl : l = 11 - r := by omega
  rw [hi, digit_leNat_two (Nat.mul_div_cancel' h) (by omega) (by omega), byteOf2]

/-- R121: a row's shift and first byte name the field, `i = (8 j + s) / 11`. -/
theorem chUnpackByBytes_eq_chUnpack (p : List Byte) : chUnpackByBytes p = (chUnpack p).toList := by
  simp (disch := decide) only [chUnpackByBytes, field2_eq_digit, field3_eq_digit]
  rfl

/-- R122: a row's shift and first value name the byte, `j = (11 i + r) / 8`. -/
theorem chPackByBytes_eq_chPack (v : Vector (BitVec 16) 16) : chPackByBytes v = chPack v := by
  simp (disch := decide) only [chPackByBytes, packHalf, ← getD_map_clamp11, byteOf1_eq_digit, byteOf2_eq_digit]
  rfl

/-- Settles O40: each row of the tables is the window its bits lie in. -/
theorem channelByteTablesAgree : Obligations.ChannelByteTablesAgree :=
  ⟨fun p _ => chUnpackByBytes_eq_chUnpack p, chPackByBytes_eq_chPack⟩

end Sys2Proof.Machine

/-! PROOFS. The big-endian marshaler (43_be_marshaler.md): a field as the number of its bytes, a value as its bytes, and
two's complement in `W` bits. -/

namespace Sys2Proof.Machine

/-! ## Reads inside the sequence (R130 to R132) -/

section

variable {b : List Byte} {o : Nat}

theorem beRead16_inside (h : o + 2 ≤ b.length) : beRead16 b o = beGet16 b o := if_pos h

theorem beRead24_inside (h : o + 3 ≤ b.length) : beRead24 b o = beGet24 b o := if_pos h

theorem beRead32_inside (h : o + 4 ≤ b.length) : beRead32 b o = beGet32 b o := if_pos h

end

/-- A byte joined below a value. -/
theorem toNat_append_byte {n : Nat} (x : BitVec n) (c : Byte) : (x ++ c).toNat = x.toNat * 2 ^ 8 + c.toNat := by
  rw [BitVec.toNat_append, ← Nat.shiftLeft_add_eq_or_of_lt c.isLt, Nat.shiftLeft_eq]

theorem toNat_beGet16 (b : List Byte) (o : Nat) :
    (beGet16 b o).toNat = (byteAt b o).toNat * 2 ^ 8 + (byteAt b (o + 1)).toNat :=
  toNat_append_byte _ _

theorem toNat_beGet24 (b : List Byte) (o : Nat) :
    (beGet24 b o).toNat =
      (byteAt b o).toNat * 2 ^ 16 + (byteAt b (o + 1)).toNat * 2 ^ 8 + (byteAt b (o + 2)).toNat := by
  rw [beGet24, toNat_append_byte, toNat_append_byte]
  ring

theorem toNat_beGet32 (b : List Byte) (o : Nat) :
    (beGet32 b o).toNat =
      (byteAt b o).toNat * 2 ^ 24 + (byteAt b (o + 1)).toNat * 2 ^ 16 + (byteAt b (o + 2)).toNat * 2 ^ 8
        + (byteAt b (o + 3)).toNat := by
  rw [beGet32, toNat_append_byte, toNat_append_byte, toNat_append_byte]
  ring

/-- Settles O41: inside its sequence a read is the field, whose bytes are joined one below another. -/
theorem bigEndianReads : Obligations.BigEndianReads := by
  intro b o s
  refine ⟨fun h => ⟨beRead16 b o, rfl, ?_⟩, fun h => ⟨beRead24 b o, rfl, ?_⟩, fun h => ⟨beRead32 b o, rfl, ?_⟩⟩
  · rw [beRead16_inside h]
    exact toNat_beGet16 b o
  · rw [beRead24_inside h]
    exact toNat_beGet24 b o
  · rw [beRead32_inside h]
    exact toNat_beGet32 b o

/-! ## Writes (R133 to R135) -/

theorem extractLsb'_eq_ofNat_div {n : Nat} (v : BitVec n) (start len : Nat) :
    v.extractLsb' start len = BitVec.ofNat len (v.toNat / 2 ^ start) := by
  rw [BitVec.extractLsb', Nat.shiftRight_eq_div_pow]

theorem bePut16_eq_ofNat (v : BitVec 16) :
    bePut16 v = [BitVec.ofNat 8 (v.toNat / 2 ^ 8), BitVec.ofNat 8 v.toNat] := by
  simp only [bePut16, extractLsb'_eq_ofNat_div, Nat.pow_zero, Nat.div_one]

theorem bePut24_eq_ofNat (v : BitVec 24) :
    bePut24 v = [BitVec.ofNat 8 (v.toNat / 2 ^ 16), BitVec.ofNat 8 (v.toNat / 2 ^ 8), BitVec.ofNat 8 v.toNat] := by
  simp only [bePut24, extractLsb'_eq_ofNat_div, Nat.pow_zero, Nat.div_one]

theorem bePut32_eq_ofNat (v : BitVec 32) :
    bePut32 v = [BitVec.ofNat 8 (v.toNat / 2 ^ 24), BitVec.ofNat 8 (v.toNat / 2 ^ 16),
      BitVec.ofNat 8 (v.toNat / 2 ^ 8), BitVec.ofNat 8 v.toNat] := by
  simp only [bePut32, extractLsb'_eq_ofNat_div, Nat.pow_zero, Nat.div_one]

/-- Settles O42: a write cuts the value at the multiples of eight bits. -/
theorem bigEndianWrites : Obligations.BigEndianWrites := by
  intro s
  refine ⟨fun v => ?_, fun v => ?_, fun v => ?_⟩
  · rw [← bePut16_eq_ofNat]
    rfl
  · rw [← bePut24_eq_ofNat]
    rfl
  · rw [← bePut32_eq_ofNat]
    rfl

/-! ## A write of what was read (R138)

A field is a shorter field with a byte below it, and a write of it the shorter write with that byte at the end. -/

theorem bePut16_append (x c : Byte) : bePut16 (x ++ c) = [x] ++ [c] := by
  rw [bePut16, BitVec.extractLsb'_append_eq_left, BitVec.extractLsb'_append_eq_right]
  rfl

theorem bePut24_append (x : BitVec 16) (c : Byte) : bePut24 (x ++ c) = bePut16 x ++ [c] := by
  rw [bePut24, BitVec.extractLsb'_append_eq_right, BitVec.extractLsb'_append_eq_of_le (by decide),
    BitVec.extractLsb'_append_eq_of_le (by decide)]
  rfl

theorem bePut32_append (x : BitVec 24) (c : Byte) : bePut32 (x ++ c) = bePut24 x ++ [c] := by
  rw [bePut32, BitVec.extractLsb'_append_eq_right, BitVec.extractLsb'_append_eq_of_le (by decide),
    BitVec.extractLsb'_append_eq_of_le (by decide), BitVec.extractLsb'_append_eq_of_le (by decide)]
  rfl

section

variable {b : List Byte} {o : Nat}

theorem take_drop_append_byteAt {n : Nat} (h : o + n < b.length) :
    (b.drop o).take n ++ [byteAt b (o + n)] = (b.drop o).take (n + 1) := by
  have hn : n < (b.drop o).length := by
    rw [List.length_drop]
    omega
  rw [← List.take_append_getElem hn, List.getElem_drop, byteAt, List.getD_eq_getElem b 0 h]

theorem bePut16_beGet16 (h : o + 2 ≤ b.length) : bePut16 (beGet16 b o) = (b.drop o).take 2 := by
  have hfirst : [byteAt b o] = (b.drop o).take 1 := take_drop_append_byteAt (n := 0) (by omega)
  rw [beGet16, bePut16_append, hfirst, take_drop_append_byteAt (by omega)]

theorem bePut24_beGet24 (h : o + 3 ≤ b.length) : bePut24 (beGet24 b o) = (b.drop o).take 3 := by
  calc bePut24 (beGet24 b o)
    _ = bePut16 (beGet16 b o) ++ [byteAt b (o + 2)] := bePut24_append _ _
    _ = (b.drop o).take 3 := by rw [bePut16_beGet16 (by omega), take_drop_append_byteAt (by omega)]

theorem bePut32_beGet32 (h : o + 4 ≤ b.length) : bePut32 (beGet32 b o) = (b.drop o).take 4 := by
  calc bePut32 (beGet32 b o)
    _ = bePut24 (beGet24 b o) ++ [byteAt b (o + 3)] := bePut32_append _ _
    _ = (b.drop o).take 4 := by rw [bePut24_beGet24 (by omega), take_drop_append_byteAt (by omega)]

end

/-! ## Two's complement in `W` bits (R136, R137) -/

theorem toInt_eq_sub_of_le_toNat {n : Nat} (x : BitVec n) :
    x.toInt = if 2 ^ (n - 1) ≤ x.toNat then (x.toNat : Int) - (2 : Int) ^ n else (x.toNat : Int) := by
  simp only [BitVec.toInt_eq_msb_cond, BitVec.msb_eq_decide, decide_eq_true_eq, Nat.cast_pow, Nat.cast_ofNat]

theorem toNat_eq_toNat_toInt_add {n : Nat} (x : BitVec n) :
    x.toNat = (if 0 ≤ x.toInt then x.toInt else x.toInt + 2 ^ n).toNat := by
  have hlt : (x.toNat : Int) < 2 ^ n := by exact_mod_cast x.isLt
  rw [toInt_eq_sub_of_le_toNat]
  split
  · rw [if_neg (by omega)]
    omega
  · rw [if_pos (by omega)]
    omega

/-- Settles O43: the field is the two's-complement pattern of the value, which sign extension keeps. -/
theorem signedReadsExtendTheSign : Obligations.SignedReadsExtendTheSign := by
  intro b o s
  refine ⟨fun h => ⟨beReads .w16 b o, rfl, ?_⟩, fun h => ⟨beReads .w24 b o, rfl, ?_⟩,
    fun h => ⟨beReads .w32 b o, rfl, ?_⟩⟩
  · rw [beReads, beRead16_inside h, BitVec.toInt_signExtend_of_le (by decide)]
    exact toInt_eq_sub_of_le_toNat _
  · rw [beReads, beRead24_inside h, BitVec.toInt_signExtend_of_le (by decide)]
    exact toInt_eq_sub_of_le_toNat _
  · rw [beReads, beRead32_inside h]
    exact toInt_eq_sub_of_le_toNat _

/-- The low `W` bits of an operand in the `W`-bit range still stand for the operand. -/
theorem toInt_setWidth_of_inSignedRange {w : Width} {v : BitVec 32} (h : inSignedRange w v = true) :
    (v.setWidth (widthBits w)).toInt = v.toInt := by
  obtain ⟨hlo, hhi⟩ := of_decide_eq_true h
  have hdvd : 2 ^ widthBits w ∣ 2 ^ 32 := Nat.pow_dvd_pow 2 (by cases w <;> decide)
  rw [BitVec.toInt_setWidth, ← Int.bmod_bmod_of_dvd hdvd, ← BitVec.toInt_eq_toNat_bmod]
  cases w <;> exact Int.bmod_eq_of_le hlo (by simp only [widthBits] at hhi ⊢; omega)

theorem bePutsPattern_of_inSignedRange {w : Width} {v : BitVec 32} (h : inSignedRange w v = true) :
    bePutsPattern w v = v := if_pos h

theorem length_bePuts (w : Width) (v : BitVec 32) : (bePuts w v).length = widthBytes w := by
  cases w <;> rfl

/-- Settles O45: whatever the pattern, its `W / 8` bytes are handed back. -/
theorem signedWritesCompleteOutsideTheDomain : Obligations.SignedWritesCompleteOutsideTheDomain :=
  fun w v _ => ⟨bePuts w v, length_bePuts w v, rfl⟩

theorem bePuts_eq_map_ofNat (w : Width) (v : BitVec 32) :
    bePuts w v = (List.range (widthBytes w)).map fun k => BitVec.ofNat 8
      (((bePutsPattern w v).setWidth (widthBits w)).toNat / 2 ^ (8 * (widthBytes w - 1 - k))) := by
  cases w with
  | w16 => simp [bePuts, bePut16_eq_ofNat, widthBytes, widthBits, List.range_succ]
  | w24 => simp [bePuts, bePut24_eq_ofNat, widthBytes, widthBits, List.range_succ]
  | w32 => simp [bePuts, bePut32_eq_ofNat, widthBytes, widthBits, List.range_succ]

/-- Settles O44: the low `W` bits stand for the operand, so their number is `v` or `v + 2^W`. -/
theorem signedWritesTwosComplement : Obligations.SignedWritesTwosComplement := by
  intro w v s hlo hhi u
  have h : inSignedRange w v = true := decide_eq_true ⟨hlo, hhi⟩
  have hu : (v.setWidth (widthBits w)).toNat = u := by
    rw [toNat_eq_toNat_toInt_add, toInt_setWidth_of_inSignedRange h]
  have hbytes := bePuts_eq_map_ofNat w v
  rw [bePutsPattern_of_inSignedRange h, hu] at hbytes
  rw [← hbytes]
  rfl

theorem beGets_bePuts (w : Width) (v : BitVec 32) :
    beGets w (bePuts w v) 0 = ((bePutsPattern w v).setWidth (widthBits w)).signExtend 32 := by
  cases w with
  | w16 => exact congrArg (BitVec.signExtend 32) (beGet16_bePut16 _)
  | w24 => exact congrArg (BitVec.signExtend 32) (beGet24_bePut24 _)
  | w32 =>
    rw [widthBits, BitVec.setWidth_eq, BitVec.signExtend_eq]
    exact beGet32_bePut32 _

/-- R138: the sign extension of the low `W` bits is the operand they stand for. -/
theorem beGets_bePuts_of_inSignedRange {w : Width} {v : BitVec 32} (h : inSignedRange w v = true) :
    beGets w (bePuts w v) 0 = v := by
  have hw : widthBits w ≤ 32 := by cases w <;> decide
  apply BitVec.eq_of_toInt_eq
  rw [beGets_bePuts, bePutsPattern_of_inSignedRange h, BitVec.toInt_signExtend_of_le hw,
    toInt_setWidth_of_inSignedRange h]

/-- Settles O46, from the round trips of each width. -/
theorem marshalerRoundTrips : Obligations.MarshalerRoundTrips :=
  ⟨beGet16_bePut16, beGet24_bePut24, beGet32_bePut32, fun _ _ => bePut16_beGet16, fun _ _ => bePut24_beGet24,
    fun _ _ => bePut32_beGet32, fun _ _ => beGets_bePuts_of_inSignedRange⟩

end Sys2Proof.Machine

/-! PROOFS. The payload codecs (44_payload_codecs.md): what each unpack and pack answers, the round trip of each codec,
the type-dispatched decoder, and the frames it receives. -/

namespace Sys2Proof.Machine

variable {s : State} {p : List Byte}

/-! ## Fixed-size records (R140 to R144, R149) -/

theorem channelsUnpack_of_length (h : p.length = 22) : channelsUnpack p = some (chUnpack p) := if_neg (not_not.mpr h)

theorem channelsUnpack_eq_none (h : p.length ≠ 22) : channelsUnpack p = none := if_pos h

/-- The capacity is the upper three of the four bytes from offset 4 on. -/
theorem extractLsb'_beGet32 (b : List Byte) (o : Nat) : (beGet32 b o).extractLsb' 8 24 = beGet24 b o :=
  BitVec.extractLsb'_append_eq_left

theorem batteryUnpack_of_length (h : p.length = 8) :
    batteryUnpack p = some ⟨beGet16 p 0, beGet16 p 2, beGet24 p 4, byteAt p 7⟩ := if_neg (not_not.mpr h)

theorem batteryUnpack_eq_none (h : p.length ≠ 8) : batteryUnpack p = none := if_pos h

theorem gpsUnpack_of_length (h : p.length = 15) :
    gpsUnpack p = some ⟨beGet32 p 0, beGet32 p 4, beGet16 p 8, beGet16 p 10, beGet16 p 12, byteAt p 14⟩ :=
  if_neg (not_not.mpr h)

theorem gpsUnpack_eq_none (h : p.length ≠ 15) : gpsUnpack p = none := if_pos h

theorem linkUnpack_eq_none (h : p.length ≠ 10) : linkUnpack p = none := if_pos h

theorem linkUnpack_linkPack (ls : Vector Byte 10) : linkUnpack (linkPack ls) = some ls := by
  rw [linkUnpack, if_neg (by simp [linkPack]), linkPack, vecOf_byteAt]

/-- Settles O47: each unpack on its one admitted length, and on the others. -/
theorem fixedRecordUnpacks : Obligations.FixedRecordUnpacks := by
  intro p s
  refine ⟨?_, ?_, fun h => ?_, fun ls hls => ?_⟩
  · show execBatteryUnpack p s = _
    rw [execBatteryUnpack, extractLsb'_beGet32]
    by_cases h : p.length = 8
    · rw [batteryUnpack_of_length h, if_pos h]; rfl
    · rw [batteryUnpack_eq_none h, if_neg h]; rfl
  · show execGpsUnpack p s = _
    rw [execGpsUnpack]
    by_cases h : p.length = 15
    · rw [gpsUnpack_of_length h, if_pos h]; rfl
    · rw [gpsUnpack_eq_none h, if_neg h]; rfl
  · show execLinkUnpack p s = _
    rw [execLinkUnpack, linkUnpack_eq_none h]
    rfl
  · subst hls
    show execLinkUnpack (linkPack ls) s = _
    rw [execLinkUnpack, linkUnpack_linkPack]
    rfl

theorem gpsPack_eq (x : Gps) :
    gpsPack x = bePut32 x.latitude ++ bePut32 x.longitude ++ bePut16 x.groundspeed ++ bePut16 x.heading
      ++ bePut16 x.altitude ++ [x.satellites] := by
  rw [gpsPack, bePuts_w32, bePuts_w32]

/-- Settles O49: a 32-bit signed write is the plain one; the other fields are written as the rules say. -/
theorem fixedRecordPacks : Obligations.FixedRecordPacks := by
  intro s
  refine ⟨fun x => rfl, fun x => ?_, fun ls => rfl⟩
  rw [← gpsPack_eq]
  rfl

/-! ## Lists of values: the unpacks (R145, R147) -/

/-- The payload lengths R145 admits. -/
def rpmShape (n : Nat) : Prop := ∃ N, 1 ≤ N ∧ N ≤ 19 ∧ n = 1 + 3 * N

/-- The payload lengths R147 admits. -/
def tempShape (n : Nat) : Prop := ∃ N, 1 ≤ N ∧ N ≤ 20 ∧ n = 1 + 2 * N

theorem rpmUnpack_of_length {N : Nat} (hlo : 1 ≤ N) (hhi : N ≤ 19) (h : p.length = 1 + 3 * N) :
    rpmUnpack p = some ⟨byteAt p 0, (List.range N).map fun k => beGets .w24 p (1 + 3 * k)⟩ := by
  have hcount : (p.length - 1) / 3 = N := by omega
  have hmax : Config.rpmMax = 19 := rfl
  rw [rpmUnpack, hcount, if_neg (by omega)]

theorem rpmUnpack_eq_none (h : ¬rpmShape p.length) : rpmUnpack p = none := by
  refine if_pos (by_contra fun hshape => h ⟨(p.length - 1) / 3, ?_⟩)
  have hmax : Config.rpmMax = 19 := rfl
  omega

theorem rpmShape_of_unpack {x : Rpm} (h : rpmUnpack p = some x) : rpmShape p.length :=
  by_contra fun hshape => nomatch (rpmUnpack_eq_none hshape).symm.trans h

/-! A temperature is a 16-bit value that the marshaler passes through 32 bits. -/

theorem inSignedRange_signExtend (x : BitVec 16) : inSignedRange .w16 (x.signExtend 32) = true := by
  have hx : (x.signExtend 32).toInt = x.toInt := BitVec.toInt_signExtend_of_le (by decide)
  exact decide_eq_true (hx ▸ ⟨BitVec.le_toInt x, Int.le_sub_one_of_lt BitVec.toInt_lt⟩)

theorem setWidth_signExtend (x : BitVec 16) : (x.signExtend 32).setWidth 16 = x :=
  BitVec.eq_of_toInt_eq ((toInt_setWidth_of_inSignedRange (inSignedRange_signExtend x)).trans
    (BitVec.toInt_signExtend_of_le (by decide)))

theorem setWidth_beGets_w16 (b : List Byte) (o : Nat) : (beGets .w16 b o).setWidth 16 = beGet16 b o :=
  setWidth_signExtend _

theorem bePuts_signExtend (x : BitVec 16) : bePuts .w16 (x.signExtend 32) = bePut16 x := by
  rw [bePuts, bePutsPattern_of_inSignedRange (inSignedRange_signExtend x), setWidth_signExtend]

theorem tempUnpack_of_length {N : Nat} (hlo : 1 ≤ N) (hhi : N ≤ 20) (h : p.length = 1 + 2 * N) :
    tempUnpack p = some ⟨byteAt p 0, (List.range N).map fun k => beGet16 p (1 + 2 * k)⟩ := by
  have hcount : (p.length - 1) / 2 = N := by omega
  have hmax : Config.tempMax = 20 := rfl
  simp only [tempUnpack, hcount, setWidth_beGets_w16]
  rw [if_neg (by omega)]

theorem tempUnpack_eq_none (h : ¬tempShape p.length) : tempUnpack p = none := by
  refine if_pos (by_contra fun hshape => h ⟨(p.length - 1) / 2, ?_⟩)
  have hmax : Config.tempMax = 20 := rfl
  omega

theorem tempShape_of_unpack {x : Temp} (h : tempUnpack p = some x) : tempShape p.length :=
  by_contra fun hshape => nomatch (tempUnpack_eq_none hshape).symm.trans h

/-- Settles O48: each unpack on the lengths it admits, and on the others. -/
theorem listUnpacks : Obligations.ListUnpacks := by
  intro p s
  refine ⟨fun N hlo hhi h => ⟨(List.range N).map fun k => beGets .w24 p (1 + 3 * k), by simp, fun k hk => ?_, ?_⟩,
    fun h => ?_,
    fun N hlo hhi h => ⟨(List.range N).map fun k => beGet16 p (1 + 2 * k), by simp, fun k hk => ?_, ?_⟩,
    fun h => ?_⟩
  · exact getD_map_range _ _ hk
  · show execRpmUnpack p s = _
    rw [execRpmUnpack, rpmUnpack_of_length hlo hhi h]
    rfl
  · show execRpmUnpack p s = _
    rw [execRpmUnpack, rpmUnpack_eq_none h]
    rfl
  · rw [getD_map_range _ _ hk, beGets, BitVec.toInt_signExtend_of_le (by decide)]
  · show execTempUnpack p s = _
    rw [execTempUnpack, tempUnpack_of_length hlo hhi h]
    rfl
  · show execTempUnpack p s = _
    rw [execTempUnpack, tempUnpack_eq_none h]
    rfl

/-! ## Lists of values: the packs (R146, R148) -/

theorem inSignedRange_w24_iff {x : BitVec 32} :
    inSignedRange .w24 x = true ↔ -8388608 ≤ x.toInt ∧ x.toInt ≤ 8388607 := decide_eq_true_iff

theorem bePuts_w24 {x : BitVec 32} (h : inSignedRange .w24 x = true) : bePuts .w24 x = bePut24 (x.setWidth 24) := by
  rw [bePuts, bePutsPattern_of_inSignedRange h]

/-- What R146 refuses: an empty list, or an entry outside 24 bits among those kept. -/
def rpmRefused (vs : List (BitVec 32)) : Prop :=
  vs = [] ∨ ∃ x ∈ vs.take 19, x.toInt < -8388608 ∨ 8388607 < x.toInt

theorem inSignedRange_of_kept {vs : List (BitVec 32)} (h : ¬rpmRefused vs) {x : BitVec 32} (hx : x ∈ vs.take 19) :
    inSignedRange .w24 x = true := by
  have hin : ¬(x.toInt < -8388608 ∨ 8388607 < x.toInt) := fun hout => h (.inr ⟨x, hx, hout⟩)
  exact inSignedRange_w24_iff.mpr (by omega)

theorem rpmPack_refused {vs : List (BitVec 32)} (h : rpmRefused vs) (sid : Byte) : rpmPack sid vs = none := by
  rcases h with rfl | ⟨x, hx, hout⟩
  · rfl
  · have hout : inSignedRange .w24 x = false := Bool.eq_false_iff.mpr (inSignedRange_w24_iff.not.mpr (by omega))
    have hany : (vs.take Config.rpmMax).any (fun x => !inSignedRange .w24 x) = true :=
      List.any_eq_true.mpr ⟨x, hx, by rw [hout]; rfl⟩
    simp only [rpmPack, hany, if_true, ite_self]

theorem rpmPack_kept {vs : List (BitVec 32)} (h : ¬rpmRefused vs) (sid : Byte) :
    rpmPack sid vs = some (sid :: (vs.take 19).flatMap (bePuts .w24)) := by
  have hany : (vs.take Config.rpmMax).any (fun x => !inSignedRange .w24 x) = false :=
    List.any_eq_false.mpr fun x hx => by simp [inSignedRange_of_kept h hx]
  have hne : ¬vs.isEmpty = true := fun hnil => h (.inl (List.isEmpty_iff.mp hnil))
  rw [rpmPack, if_neg hne]
  exact if_neg (Bool.eq_false_iff.mp hany)

theorem tempPack_kept {vs : List (BitVec 16)} (h : vs ≠ []) (sid : Byte) :
    tempPack sid vs = some (sid :: (vs.take 20).flatMap bePut16) := by
  rw [tempPack, if_neg (List.isEmpty_iff.not.mpr h), funext bePuts_signExtend]

/-- Settles O50: what each pack refuses, and the bytes of the entries it keeps. -/
theorem listPacks : Obligations.ListPacks := by
  intro s sid
  refine ⟨fun vs => ?_, fun vs => ?_⟩
  · show execRpmPack sid vs s = _
    rw [execRpmPack]
    by_cases h : rpmRefused vs
    · rw [rpmPack_refused h, if_pos (by exact h)]
      rfl
    · rw [rpmPack_kept h, if_neg (by exact h),
        ← List.flatMap_congr fun x hx => bePuts_w24 (inSignedRange_of_kept h hx)]
      rfl
  · show execTempPack sid vs s = _
    rw [execTempPack]
    by_cases h : vs = []
    · rw [h, if_pos rfl]
      rfl
    · rw [tempPack_kept h, if_neg h]
      rfl

/-! ## Lists of values: the round trips (R156) -/

theorem beGets_flatMap_bePuts {vs : List (BitVec 32)} (h : ∀ x ∈ vs, inSignedRange .w24 x = true) {i : Nat}
    (hi : i < vs.length) : beGets .w24 (vs.flatMap (bePuts .w24)) (3 * i) = vs[i] := by
  induction vs generalizing i with
  | nil => cases hi
  | cons v vs ih =>
    obtain ⟨hv, hvs⟩ := List.forall_mem_cons.mp h
    cases i with
    | zero => exact beGets_bePuts_of_inSignedRange hv
    | succ i => exact ih hvs (Nat.lt_of_succ_lt_succ hi)

theorem map_range_eq_of_getElem {α : Type} {f : Nat → α} {vs : List α}
    (h : ∀ i (hi : i < vs.length), f i = vs[i]) : (List.range vs.length).map f = vs :=
  List.ext_getElem (by simp) fun i _ hi => by simp [h i hi]

/-- An RPM list that is not longer than the cap comes back whole. -/
theorem rpmUnpack_of_pack {sid : Byte} {vs : List (BitVec 32)} (hmax : vs.length ≤ 19)
    (h : rpmPack sid vs = some p) : rpmUnpack p = some ⟨sid, vs⟩ := by
  have hkept : ¬rpmRefused vs := fun hno => nomatch (rpmPack_refused hno sid).symm.trans h
  have hrange : ∀ x ∈ vs.take 19, inSignedRange .w24 x = true := fun x => inSignedRange_of_kept hkept
  have hpos : 1 ≤ vs.length := List.length_pos_iff.mpr fun hnil => hkept (.inl hnil)
  rw [rpmPack_kept hkept] at h
  rw [List.take_of_length_le hmax] at h hrange
  obtain rfl := Option.some.inj h
  rw [rpmUnpack_of_length hpos hmax (by simp [length_bePuts, widthBytes]; omega)]
  exact congrArg (fun values => some (Rpm.mk sid values)) (map_range_eq_of_getElem fun i hi => by
    rw [Nat.add_comm]
    exact beGets_flatMap_bePuts hrange hi)

/-- A temperature list that is not longer than the cap comes back whole. -/
theorem tempUnpack_of_pack {sid : Byte} {vs : List (BitVec 16)} (hmax : vs.length ≤ 20)
    (h : tempPack sid vs = some p) : tempUnpack p = some ⟨sid, vs⟩ := by
  have hne : vs ≠ [] := by
    rintro rfl
    cases h
  rw [tempPack_kept hne, List.take_of_length_le hmax] at h
  obtain rfl := Option.some.inj h
  rw [tempUnpack_of_length (List.length_pos_iff.mpr hne) hmax (by simp; omega)]
  exact congrArg (fun values => some (Temp.mk sid values)) (map_range_eq_of_getElem fun i hi => by
    rw [Nat.add_comm]
    exact beGet16_flatMap_bePut16 vs hi)

theorem channelsUnpack_chPack (v : Vector (BitVec 11) 16) :
    channelsUnpack (chPack (vecMap (BitVec.setWidth 16) v)) = some v := by
  have hclamp : vecMap clamp11 (vecMap (BitVec.setWidth 16) v) = v := by
    ext1 i hi
    rw [getElem_vecMap, getElem_vecMap, clamp11_setWidth]
  rw [channelsUnpack_of_length (by simp [chPack]), chUnpack_chPack, hclamp]

/-! ## The dispatcher (R150 to R155) -/

section

variable (dest : Byte) (p : List Byte) (s : State)

/-- A value that goes nowhere but to `EV` (R153), or the shape error in its place (R155). -/
theorem onValue_emitEvent {α : Type} (r : Option α) (type : Byte) (n : Nat) (f : α → Event) :
    onValue r type n (fun x => emitEvent (f x)) s = emitEvent ((r.map f).getD (.errPayloadShape type n)) s := by
  cases r <;> rfl

theorem dispatch_channels : dispatch Config.params dest Config.params.typeChannels p s =
    onValue (channelsUnpack p) Config.params.typeChannels p.length (acceptChannels Config.params dest) s := rfl

theorem dispatch_link : dispatch Config.params dest Config.params.typeLink p s =
    onValue (linkUnpack p) Config.params.typeLink p.length (acceptLink dest) s := rfl

theorem dispatch_battery : dispatch Config.params dest Config.params.typeBattery p s =
    emitEvent (((batteryUnpack p).map (Event.decBattery dest)).getD
      (.errPayloadShape Config.params.typeBattery p.length)) s := onValue_emitEvent ..

theorem dispatch_gps : dispatch Config.params dest Config.params.typeGps p s =
    emitEvent (((gpsUnpack p).map (Event.decGps dest)).getD
      (.errPayloadShape Config.params.typeGps p.length)) s := onValue_emitEvent ..

theorem dispatch_rpm : dispatch Config.params dest Config.params.typeRpm p s =
    emitEvent (((rpmUnpack p).map (Event.decRpm dest)).getD
      (.errPayloadShape Config.params.typeRpm p.length)) s := onValue_emitEvent ..

theorem dispatch_temp : dispatch Config.params dest Config.params.typeTemp p s =
    emitEvent (((tempUnpack p).map (Event.decTemp dest)).getD
      (.errPayloadShape Config.params.typeTemp p.length)) s := onValue_emitEvent ..

theorem dispatch_other {type : Byte} (h : type ∉ Config.params.types) :
    dispatch Config.params dest type p s = acceptGeneric dest type p s := by
  simp only [Params.types, List.mem_cons, List.not_mem_nil, or_false, not_or] at h
  simp [dispatch, h]

end

/-- Settles O51: the branch of each type, and of every other. -/
theorem dispatchRoutesByType : Obligations.DispatchRoutesByType := by
  intro s dest type p
  show Host.Outcome.next (dispatch Config.params dest type p s) = _
  refine congrArg _ ?_
  split_ifs with hch hlen hlink hbattery hgps hrpm htemp
  · rw [hch, dispatch_channels, channelsUnpack_of_length hlen]
    rfl
  · rw [hch, dispatch_channels, channelsUnpack_eq_none hlen]
    rfl
  · rw [hlink, dispatch_link]
    cases linkUnpack p <;> rfl
  · rw [hbattery, dispatch_battery]
    rfl
  · rw [hgps, dispatch_gps]
    rfl
  · rw [hrpm, dispatch_rpm]
    rfl
  · rw [htemp, dispatch_temp]
    rfl
  · rw [dispatch_other _ _ _ (by simp [Params.types, *])]
    simp [acceptGeneric, emitEvent, raise]

/-! ## Accepted frames (R151 to R155) -/

section

variable {d : Dest} {type c : Byte}

theorem judge_of_crcAccepted (h : crcAccepted type p c s = true) (P : Params) (dest : Byte) :
    judge P dest type p (crcBitwise s.cfg.poly (type :: p)) c s = dispatch P dest type p s := by
  refine if_neg fun hmismatch => hmismatch.2 ?_
  simpa [crcAccepted, hmismatch.1] using h

/-- An accepted frame is dispatched, once the receive agent has taken its bytes (log 8). -/
theorem ReadyToReceive.frame_dispatched (h : ReadyToReceive s) (hp : p.length ≤ 60)
    (hc : crcAccepted type p c s = true) :
    ∃ u, exec (frameOfType Config.params d type p c) s = .next u ∧ drain Config.params u = .next
      (dispatch Config.params (dval Config.params d) type p (frameTaken (frameBytes Config.params d type p c) s)) := by
  have hu := h.offer_frame (P := Config.params) d type p c
  refine ⟨_, (exec_frameOfType d type p c s).trans hu, ?_⟩
  rw [h.drain_frame hp hu]
  exact congrArg _ (judge_of_crcAccepted (s := frameTaken _ s) hc _ _)

/-- An accepted frame whose dispatch appends one event and does nothing else. -/
theorem ReadyToReceive.frame_emits (h : ReadyToReceive s) (hp : p.length ≤ 60) (hc : crcAccepted type p c s = true)
    {e : Event} (he : ∀ t, dispatch Config.params (dval Config.params d) type p t = emitEvent e t) :
    ∃ u, exec (frameOfType Config.params d type p c) s = .next u ∧ drain Config.params u = .next
      { frameTaken (frameBytes Config.params d type p c) s with ev := s.ev ++ [e] } := by
  obtain ⟨u, hu, hdrain⟩ := h.frame_dispatched (d := d) hp hc
  exact ⟨u, hu, hdrain.trans (congrArg _ (he _))⟩

end

/-- Settles O27: a payload that its codec decodes is short enough for a frame, and its value goes to `EV` only. -/
theorem telemetryFramesLeaveAsOneEvent : Obligations.TelemetryFramesLeaveAsOneEvent := by
  intro s d p c h
  refine ⟨fun x hx hc => ?_, fun x hx hc => ?_, fun x hx hc => ?_, fun x hx hc => ?_⟩
  · have hp : p.length = 15 := by_contra fun hp => nomatch (gpsUnpack_eq_none hp).symm.trans hx
    exact h.frame_emits (by omega) hc fun t => by rw [dispatch_gps, hx]; rfl
  · have hp : p.length = 8 := by_contra fun hp => nomatch (batteryUnpack_eq_none hp).symm.trans hx
    exact h.frame_emits (by omega) hc fun t => by rw [dispatch_battery, hx]; rfl
  · obtain ⟨N, -, hN, hp⟩ := rpmShape_of_unpack hx
    exact h.frame_emits (by omega) hc fun t => by rw [dispatch_rpm, hx]; rfl
  · obtain ⟨N, -, hN, hp⟩ := tempShape_of_unpack hx
    exact h.frame_emits (by omega) hc fun t => by rw [dispatch_temp, hx]; rfl

/-- Settles O28: the acceptance of R151, whose window is 500 ticks at the default `TICK_MS`. -/
theorem channelsFrameUpdatesAndFeeds : Obligations.ChannelsFrameUpdatesAndFeeds := by
  intro s d p c h hp hc
  obtain ⟨u, hu, hdrain⟩ := h.frame_dispatched (d := d) (by omega) hc
  refine ⟨u, hu, hdrain.trans ?_⟩
  rw [dispatch_channels, channelsUnpack_of_length hp]
  rfl

/-- Settles O29: the acceptance of R152. -/
theorem linkFrameUpdatesStatistics : Obligations.LinkFrameUpdatesStatistics := by
  intro s d v c h hc
  obtain ⟨u, hu, hdrain⟩ := h.frame_dispatched (d := d) (by simp) hc
  refine ⟨u, hu, hdrain.trans ?_⟩
  rw [dispatch_link, show linkUnpack v.toList = some v from linkUnpack_linkPack v]
  rfl

/-- Settles O30: the acceptance of R154. -/
theorem genericFrameIsIgnored : Obligations.GenericFrameIsIgnored := by
  intro s d type p c h htype hp hc
  obtain ⟨u, hu, hdrain⟩ := h.frame_dispatched (d := d) hp hc
  rw [frameOfType_other (by simpa using htype)] at hu
  refine ⟨u, hu, hdrain.trans ?_⟩
  rw [dispatch_other _ _ _ htype]
  simp [acceptGeneric, emitEvent, raise, frameTaken]

/-- Settles O32: the codec of each type answers a shape error, which goes to `EV` in the value's place. -/
theorem wrongShapeDropsTheFrame : Obligations.WrongShapeDropsTheFrame := by
  intro s d type p c h hp hc hshape
  refine h.frame_emits hp hc fun t => ?_
  rcases hshape with ⟨rfl, hlen⟩ | ⟨rfl, hlen⟩ | ⟨rfl, hlen⟩ | ⟨rfl, hlen⟩ | ⟨rfl, hlen⟩ | ⟨rfl, hlen⟩
  · rw [dispatch_channels, channelsUnpack_eq_none hlen]; rfl
  · rw [dispatch_battery, batteryUnpack_eq_none hlen]; rfl
  · rw [dispatch_gps, gpsUnpack_eq_none hlen]; rfl
  · rw [dispatch_link, linkUnpack_eq_none hlen]; rfl
  · rw [dispatch_rpm, rpmUnpack_eq_none hlen]; rfl
  · rw [dispatch_temp, tempUnpack_eq_none hlen]; rfl

/-! ## The whole pipeline (R156) -/

/-- The frame of a pack, presented as a chunk, is dispatched. -/
theorem ReadyToReceive.encoded_dispatched (h : ReadyToReceive s) (d : Dest) (type : Byte) (hp : p.length ≤ 60) :
    ∃ u, exec (.rxChunk (encodedFrame d type p s)) s = .next u ∧ drain Config.params u = .next
      (dispatch Config.params (dval Config.params d) type p (frameTaken (encodedFrame d type p s) s)) :=
  (encodedFrameIsDispatchedOnce s d type p hp).2 h

/-- The frame of a pack whose dispatch appends one event and does nothing else. -/
theorem ReadyToReceive.encoded_emits (h : ReadyToReceive s) {d : Dest} {type : Byte} (hp : p.length ≤ 60) {e : Event}
    (he : ∀ t, dispatch Config.params (dval Config.params d) type p t = emitEvent e t) :
    ∃ u t, exec (.rxChunk (encodedFrame d type p s)) s = .next u ∧ drain Config.params u = .next t ∧
      t.ev = s.ev ++ [e] := by
  obtain ⟨u, hu, hdrain⟩ := h.encoded_dispatched d type hp
  exact ⟨u, _, hu, hdrain, by rw [he]; rfl⟩

/-- Settles O34: the round trip of each codec, behind the one dispatch of an encoded frame. -/
theorem pipelineRoundTrips : Obligations.PipelineRoundTrips := by
  intro s d h
  refine ⟨fun x => ?_, fun x => ?_, fun ls => ?_, fun v => ?_, fun sid vs p hmax hpack => ?_,
    fun sid vs p hmax hpack => ?_⟩
  · exact h.encoded_emits (by simp) fun t => by rw [dispatch_battery, batteryUnpack_batteryPack]; rfl
  · exact h.encoded_emits (by simp) fun t => by rw [dispatch_gps, gpsUnpack_gpsPack]; rfl
  · obtain ⟨u, hu, hdrain⟩ := h.encoded_dispatched d Config.params.typeLink (p := linkPack ls) (by simp [linkPack])
    rw [dispatch_link, linkUnpack_linkPack] at hdrain
    exact ⟨u, _, hu, hdrain, rfl, rfl⟩
  · obtain ⟨u, hu, hdrain⟩ := h.encoded_dispatched d Config.params.typeChannels
      (p := chPack (vecMap (BitVec.setWidth 16) v)) (by simp [chPack])
    rw [dispatch_channels, channelsUnpack_chPack] at hdrain
    exact ⟨u, _, hu, hdrain, rfl, rfl⟩
  · have hx := rpmUnpack_of_pack hmax hpack
    obtain ⟨N, -, hN, hp⟩ := rpmShape_of_unpack hx
    exact h.encoded_emits (by omega) fun t => by rw [dispatch_rpm, hx]; rfl
  · have hx := tempUnpack_of_pack hmax hpack
    obtain ⟨N, -, hN, hp⟩ := tempShape_of_unpack hx
    exact h.encoded_emits (by omega) fun t => by rw [dispatch_temp, hx]; rfl

end Sys2Proof.Machine

/-! PROOFS. The snapshot register file (45_snapshot_regfile.md): each operation at the unit port is the named operation
on the state. -/

namespace Sys2Proof.Machine

/-! ## The four operations (R170 to R173) -/

section

variable (v : Vector (BitVec 11) 16) (ls : Vector Byte 10) (s : State)

@[simp] theorem exec_stUpdateCh : exec (.stUpdateCh v) s = .next (updateChannels v s) := rfl

@[simp] theorem exec_stReadCh : exec .stReadCh s = .next (give (.ch (readChannels s)) s) := rfl

@[simp] theorem exec_stUpdateLs : exec (.stUpdateLs ls) s = .next (updateLinkStats ls s) := rfl

@[simp] theorem exec_stReadLs : exec .stReadLs s = .next (give (.linkStatistics (readLinkStats s)) s) := rfl

end

/-- Settles O52: an update is a write of its own field, and a read adds its copy to the results. -/
theorem snapshotOperations : Obligations.SnapshotOperations := fun s v ls =>
  ⟨exec_stUpdateCh v s, exec_stReadCh s, exec_stUpdateLs ls s, exec_stReadLs s⟩

end Sys2Proof.Machine

/-! PROOFS. The host operations (46_host_ops.md): reserved codes, `INIT`, the reads, the sends, and what none of them
writes. -/

namespace Sys2Proof.Machine

variable {s t : State}

/-! ## Reserved codes (R195) -/

/-- Settles O3: the host port's decoder looks at the code alone, and a reserved operation is an error and no more. -/
theorem reservedHostCodesAreRefusedByName : Obligations.ReservedHostCodesAreRefusedByName :=
  fun _ args _ hlo hhi => ⟨decode_host_reserved hlo hhi Config.params args, rfl⟩

/-! ## `INIT` (R186) -/

theorem exec_init_of_notInited (hi : s.inited = false) (poly : Byte) (v : Bool) :
    exec (.init poly v) s = .next (give .ok (setUp poly v s)) := by
  show execInit poly v s = _
  rw [execInit, if_neg (by simp [hi])]

theorem exec_init_of_inited (hi : s.inited = true) (poly : Byte) (v : Bool) :
    exec (.init poly v) s = .next (give .ok s) := by
  show execInit poly v s = _
  rw [execInit, if_pos hi]

/-- What `INIT` leaves is initialised, whether or not it was the first. -/
theorem inited_of_exec_init {poly : Byte} {v : Bool} (h : exec (.init poly v) s = .next t) : t.inited = true := by
  cases hi : s.inited with
  | false =>
    rw [exec_init_of_notInited hi] at h
    cases h
    rfl
  | true =>
    rw [exec_init_of_inited hi] at h
    cases h
    exact hi

theorem read_crcTable (poly : Byte) {i : Nat} (hi : i < 256) :
    (crcTable poly).read i = some (crcEntry poly (BitVec.ofNat 8 i)) := by
  rw [crcTable, Memory.read_ofBytes, crcBuild_getElem? poly hi]

/-- Settles O55: the set-up, its table, and a second `INIT`, which finds the engine initialised. -/
theorem initSetsUpOnce : Obligations.InitSetsUpOnce :=
  fun _ poly v => ⟨fun hi => exec_init_of_notInited hi poly v, fun _ hi => read_crcTable poly hi,
    fun hi => exec_init_of_inited hi poly v, fun poly' v' _ h => exec_init_of_inited (inited_of_exec_init h) poly' v'⟩

/-! ## The reads (R187 to R189) -/

theorem toNat_getD_map_setWidth (v : List (BitVec 11)) (i : Nat) :
    ((v.map (BitVec.setWidth 16)).getD i 0).toNat = (v.getD i 0).toNat :=
  (congrArg BitVec.toNat (List.getD_map v 0 (BitVec.setWidth 16))).trans (BitVec.toNat_setWidth_of_le (by decide))

/-- Settles O56: zero extension keeps the number of each channel. -/
theorem hostReads : Obligations.HostReads :=
  fun s => ⟨⟨vecMap (BitVec.setWidth 16) s.ch, rfl, fun i _ => toNat_getD_map_setWidth s.ch.toList i⟩, rfl, rfl⟩

/-! ## The sends (R190 to R194) -/

/-- A payload that was packed is sent as it is: `SEND` itself asks for `INITED` = 1 (R212). -/
theorem sendPacked_some (P : Params) (op : BitVec 6) (d : Dest) (type : Byte) (p : List Byte) (s : State) :
    sendPacked P op d type (some p) s = sendFrame P op d type p s := by
  cases hi : s.inited with
  | false => rw [sendPacked, sendFrame, if_pos hi, if_pos hi]
  | true => exact if_neg (by simp [hi])

/-- On a sound initialised engine a payload that fits goes out as its frame. -/
theorem EngineInv.sendFrame_eq (h : EngineInv s) (hi : s.inited = true) (op : BitVec 6) (d : Dest) (type : Byte)
    {p : List Byte} (hp : p.length ≤ 60) :
    sendFrame Config.params op d type p s = .next (frameSent (encodedFrame d type p s) s) := by
  refine sendFrame_of_frame hi hp (h.assembleFrame_eq hi _ type p) ?_
  simp only [List.length_append, List.length_cons, List.length_nil]
  omega

/-- Settles O57: the payloads are 8 and 15 bytes long. -/
theorem fixedRecordSends : Obligations.FixedRecordSends :=
  fun _ d h hi => ⟨fun x => h.sendFrame_eq hi 0x04 d _ (p := batteryPack x) (by simp),
    fun x => h.sendFrame_eq hi 0x05 d _ (p := gpsPack x) (by simp)⟩

theorem rpmPack_of_range {vs : List (BitVec 32)} (hne : vs ≠ [])
    (hrange : ∀ x ∈ vs.take 19, -8388608 ≤ x.toInt ∧ x.toInt ≤ 8388607) (sid : Byte) :
    rpmPack sid vs = some (sid :: (vs.take 19).flatMap fun x => bePut24 (x.setWidth 24)) := by
  have hkept : ¬rpmRefused vs := by
    rintro (hnil | ⟨x, hx, hout⟩)
    · exact hne hnil
    · have := hrange x hx
      omega
  rw [rpmPack_kept hkept, List.flatMap_congr fun x hx => bePuts_w24 (inSignedRange_of_kept hkept hx)]

/-- The payload of a list that is cut off at its cap. -/
theorem length_cappedPayload_le {α : Type} {f : α → List Byte} {width : Nat} (hf : ∀ x, (f x).length = width)
    (cap : Nat) (sid : Byte) (vs : List α) : (sid :: (vs.take cap).flatMap f).length ≤ cap * width + 1 := by
  have hlen : ((vs.take cap).flatMap f).length = (vs.take cap).length * width := by simp [List.length_flatMap, hf]
  rw [List.length_cons, hlen]
  exact Nat.succ_le_succ (Nat.mul_le_mul_right width (List.length_take_le cap vs))

/-- Settles O58: the kept entries fit a payload, 3 bytes each of at most 19 or 2 bytes each of at most 20. -/
theorem listSends : Obligations.ListSends := by
  intro s d sid h hi
  refine ⟨fun vs hne hrange => ?_, fun vs hne => ?_⟩
  · have hp := length_cappedPayload_le (fun x : BitVec 32 => length_bePut24 (x.setWidth 24)) 19 sid vs
    show sendPacked _ 0x06 d _ (rpmPack sid vs) s = _
    rw [rpmPack_of_range hne hrange, sendPacked_some]
    exact h.sendFrame_eq hi 0x06 d _ (hp.trans (by decide))
  · have hp := length_cappedPayload_le length_bePut16 20 sid vs
    show sendPacked _ 0x07 d _ (tempPack sid vs) s = _
    rw [tempPack_kept hne, sendPacked_some]
    exact h.sendFrame_eq hi 0x07 d _ (hp.trans (by decide))

/-! ## What no host operation writes (R194, R224) -/

/-- The operations that write a frame (R190 to R193). -/
inductive IsSend : Instr → Prop where
  | battery (d : Dest) (x : Battery) : IsSend (.sendBattery d x)
  | gps (d : Dest) (x : Gps) : IsSend (.sendGps d x)
  | rpm (d : Dest) (sid : Byte) (vs : List (BitVec 32)) : IsSend (.sendRpm d sid vs)
  | temp (d : Dest) (sid : Byte) (vs : List (BitVec 16)) : IsSend (.sendTemp d sid vs)

/-- What a host operation that completes did: it answered with a result and perhaps an event, it was the first `INIT`,
or it was a send that wrote bytes. -/
inductive HostDid (s : State) : Instr → State → Prop where
  | answered (i : Instr) (ev : List Event) (res : List Result) : HostDid s i { s with ev := ev, res := res }
  | initialised (poly : Byte) (v : Bool) : HostDid s (.init poly v) (give .ok (setUp poly v s))
  | sent (i : Instr) (hsend : IsSend i) (out : List Byte) (buf : Memory) :
      HostDid s i (give .ok (txWrite out (setTxbuf buf s)))

theorem sendFrame_hostDid {i : Instr} (hsend : IsSend i) {P : Params} {op : BitVec 6} {d : Dest} {type : Byte}
    {p : List Byte} (h : sendFrame P op d type p s = .next t) : HostDid s i t := by
  rcases sendFrame_next h with ⟨-, rfl⟩ | ⟨-, -, rfl⟩ | ⟨-, -, f, buf, out, -, -, -, rfl⟩
  · exact .answered i _ _
  · exact .answered i _ _
  · exact .sent i hsend out buf

theorem sendPacked_hostDid {i : Instr} (hsend : IsSend i) {P : Params} {op : BitVec 6} {d : Dest} {type : Byte}
    {p : Option (List Byte)} (h : sendPacked P op d type p s = .next t) : HostDid s i t := by
  cases p with
  | some p => exact sendFrame_hostDid hsend (sendPacked_some P op d type p s ▸ h)
  | none =>
    rw [sendPacked] at h
    split at h <;> (cases h; exact .answered i _ _)

/-- The inversion of `exec` at the host port. -/
theorem exec_hostDid {i : Instr} (hport : portOf i = .host) (h : exec i s = .next t) : HostDid s i t := by
  cases i
  case init poly v =>
    cases hi : s.inited with
    | false =>
      rw [exec_init_of_notInited hi] at h
      cases h
      exact .initialised poly v
    | true =>
      rw [exec_init_of_inited hi] at h
      cases h
      exact .answered _ _ _
  case sendBattery d x => exact sendFrame_hostDid (.battery d x) h
  case sendGps d x => exact sendFrame_hostDid (.gps d x) h
  case sendRpm d sid vs => exact sendPacked_hostDid (.rpm d sid vs) h
  case sendTemp d sid vs => exact sendPacked_hostDid (.temp d sid vs) h
  case receiveChannels | getLinkStatistics | isFailsafe | reservedOp =>
    cases h
    exact .answered _ _ _
  all_goals exact nomatch hport

/-- Settles O13: an answer writes `EV` and the results, the first `INIT` its own registers, a send `TXBUF` and `TX`. -/
theorem hostOperationsFrame : Obligations.HostOperationsFrame := by
  intro i s t hport h
  cases exec_hostDid hport h with
  | answered i ev res =>
    exact ⟨rfl, rfl, rfl, rfl, rfl, rfl, rfl, fun _ => ⟨rfl, rfl, rfl, rfl, rfl, rfl, rfl⟩,
      fun _ _ _ _ => ⟨rfl, rfl⟩⟩
  | initialised poly v =>
    exact ⟨rfl, rfl, rfl, rfl, rfl, rfl, rfl, fun hinit => absurd rfl (hinit poly v), fun _ _ _ _ => ⟨rfl, rfl⟩⟩
  | sent i hsend out buf =>
    refine ⟨rfl, rfl, rfl, rfl, rfl, rfl, rfl, fun _ => ⟨rfl, rfl, rfl, rfl, rfl, rfl, rfl⟩, fun hb hg hr ht => ?_⟩
    cases hsend with
    | battery d x => exact absurd rfl (hb d x)
    | gps d x => exact absurd rfl (hg d x)
    | rpm d sid vs => exact absurd rfl (hr d sid vs)
    | temp d sid vs => exact absurd rfl (ht d sid vs)

end Sys2Proof.Machine

/-! PROOFS. Exceptions (60_exceptions.md): the frame a wrong checksum drops, the failsafe monitor and its window, and
the sends that are refused. -/

namespace Sys2Proof.Machine

variable {s : State}

/-! ## A wrong checksum (R105, R204) -/

theorem judge_of_mismatch {computed received : Byte} (hv : s.cfg.crcVerify = true) (hne : computed ≠ received)
    (P : Params) (dest type : Byte) (p : List Byte) :
    judge P dest type p computed received s = raise (.errCrcMismatch computed received) s := if_pos ⟨hv, hne⟩

/-- Settles O31: the receive agent takes the whole frame as it takes any other, and its judgement is the error. -/
theorem wrongChecksumDropsTheFrame : Obligations.WrongChecksumDropsTheFrame := by
  intro s d type p c h hp hv hne
  have hu := h.offer_frame (P := Config.params) d type p c
  refine ⟨_, (exec_frameOfType d type p c s).trans hu, ?_⟩
  rw [h.drain_frame hp hu, judge_of_mismatch (s := frameTaken _ s) hv hne]
  rfl

/-! ## The operations of the failsafe monitor (R216 to R219) -/

section

variable (s : State)

@[simp] theorem exec_fsFeed : exec .fsFeed s = .next (feedWatchdog Config.params s) := rfl

@[simp] theorem exec_fsExpire : exec .fsExpire s = .next (expireWatchdog s) := rfl

@[simp] theorem exec_tick : exec .tick s = .next (tickWatchdog s) := rfl

@[simp] theorem exec_fsQuery : exec .fsQuery s = .next (give (.bit (failsafeQuery s)) s) := rfl

end

/-- Settles O53: each operation is the named one on the state, the window being 500 ticks of 1 ms. -/
theorem failsafeOperations : Obligations.FailsafeOperations := fun s =>
  ⟨exec_fsFeed s, exec_fsExpire s, exec_tick s, exec_fsQuery s⟩

/-! ## The window of a feed (R220) -/

theorem tickWatchdog_disarmed (ha : s.wdtArmed = false) : tickWatchdog s = s := if_neg (by simp [ha])

theorem tickWatchdog_last (ha : s.wdtArmed = true) (hc : s.wdtCnt = 1) : tickWatchdog s = expireWatchdog s := by
  rw [tickWatchdog, if_pos ha, if_pos hc]

theorem tickWatchdog_counts (ha : s.wdtArmed = true) (hc : s.wdtCnt ≠ 1) :
    tickWatchdog s = { s with wdtCnt := s.wdtCnt - 1 } := by
  rw [tickWatchdog, if_pos ha, if_neg hc]

theorem execAll_ticks (n : Nat) (s : State) : execAll (List.replicate n .tick) s = .next (tickWatchdog^[n] s) := by
  induction n generalizing s with
  | zero => rfl
  | succ n ih => rw [List.replicate_succ, execAll_cons, exec_tick, andThen_next, ih, Function.iterate_succ_apply]

/-- Ticks that do not use up the window only count it down. -/
theorem iterate_tickWatchdog_of_lt {n : Nat} (ha : s.wdtArmed = true) (hn : n < s.wdtCnt) :
    tickWatchdog^[n] s = { s with wdtCnt := s.wdtCnt - n } := by
  induction n with
  | zero => rfl
  | succ n ih =>
    have hc : s.wdtCnt - n ≠ 1 := by omega
    rw [Function.iterate_succ_apply', ih (by omega), tickWatchdog_counts (s := { s with wdtCnt := s.wdtCnt - n }) ha hc]
    rfl

/-- The tick that uses up the window expires it, and those after it find the watchdog disarmed. -/
theorem iterate_tickWatchdog_of_le {n : Nat} (ha : s.wdtArmed = true) (hpos : 0 < s.wdtCnt) (hn : s.wdtCnt ≤ n) :
    tickWatchdog^[n] s = expireWatchdog { s with wdtCnt := 1 } := by
  obtain ⟨k, hk⟩ : ∃ k, s.wdtCnt = k + 1 := ⟨s.wdtCnt - 1, by omega⟩
  obtain ⟨m, rfl⟩ : ∃ m, n = m + (k + 1) := ⟨n - (k + 1), by omega⟩
  have hcount : tickWatchdog^[k] s = { s with wdtCnt := 1 } := by
    rw [iterate_tickWatchdog_of_lt ha (by omega), hk, Nat.add_sub_cancel_left]
  rw [Function.iterate_add_apply, Function.iterate_succ_apply', hcount,
    tickWatchdog_last (s := { s with wdtCnt := 1 }) ha rfl]
  exact Function.iterate_fixed (tickWatchdog_disarmed rfl) m

/-- Settles O54: before the 500th tick the window counts down, and from it on the watchdog has expired once. -/
theorem failsafeLifecycle : Obligations.FailsafeLifecycle := by
  intro s n
  have hcnt : (feedWatchdog Config.params s).wdtCnt = 500 := rfl
  refine ⟨tickWatchdog^[n] (feedWatchdog Config.params s), ?_, ?_⟩
  · rw [execAll_cons, exec_fsFeed, andThen_next, execAll_ticks]
  · rcases Nat.lt_or_ge n 500 with hn | hn
    · rw [iterate_tickWatchdog_of_lt rfl (by omega), hcnt]
      simp [hn]
    · rw [iterate_tickWatchdog_of_le rfl (by omega) (by omega)]
      simp [hn]

/-! ## Refused sends (R209, R210, R212) -/

section

variable (P : Params) (op : BitVec 6) (d : Dest) (type : Byte)

theorem sendFrame_of_notInited (hi : s.inited = false) (p : List Byte) :
    sendFrame P op d type p s = failWith (.errNotInitialised op) .notInitialised s := if_pos hi

theorem sendPacked_of_notInited (hi : s.inited = false) (p : Option (List Byte)) :
    sendPacked P op d type p s = failWith (.errNotInitialised op) .notInitialised s := if_pos hi

theorem sendPacked_none (hi : s.inited = true) :
    sendPacked P op d type none s = failWith (.errRange op) .range s := if_neg (by simp [hi])

end

/-- Settles O59: `INITED` is asked first, then the pack, which refuses an empty list or a kept value out of range. -/
theorem refusedSendsWriteNothing : Obligations.RefusedSendsWriteNothing := by
  intro s d sid
  refine ⟨fun hi => ⟨fun x => ?_, fun x => ?_, fun vs => ?_, fun vs => ?_⟩,
    fun hi => ⟨fun vs hvs => ?_, ?_⟩⟩
  · exact sendFrame_of_notInited _ 0x04 d _ hi _
  · exact sendFrame_of_notInited _ 0x05 d _ hi _
  · exact sendPacked_of_notInited _ 0x06 d _ hi _
  · exact sendPacked_of_notInited _ 0x07 d _ hi _
  · show sendPacked _ 0x06 d _ (rpmPack sid vs) s = _
    rw [rpmPack_refused hvs, sendPacked_none _ _ _ _ hi]
    rfl
  · exact sendPacked_none Config.params 0x07 d Config.params.typeTemp hi

end Sys2Proof.Machine

/-! PROOFS. Reset and hazards (70_reset_and_hazards.md): the values a hardware reset states, and that nothing reads an
element it leaves unspecified. The second is a statement about the projection `live`: every operation comes to the same
outcome, up to such elements, on a state and on its live part. -/

namespace Sys2Proof.Machine

variable {s t : State}

/-- Settles O5: the step of the entry is `hardwareReset`, which keeps the streams, the results and the entries. -/
theorem resetLeavesTheStatedValues : Obligations.ResetLeavesTheStatedValues :=
  fun _ _ hin => ⟨_, step_of_cons hin, rfl, rfl, rfl, rfl, rfl, rfl, rfl, rfl, rfl, rfl, rfl⟩

/-! ## The part of a buffer below an index -/

/-- The written elements below index `n`. -/
def Memory.restrict (m : Memory) (n : Nat) : Memory := m.filter fun c => decide (c.1 < n)

theorem Memory.restrict_zero (m : Memory) : m.restrict 0 = [] := by simp [Memory.restrict]

theorem Memory.restrict_cons (c : Host.Cell) (m : Memory) (n : Nat) :
    Memory.restrict (c :: m) n = if c.1 < n then c :: m.restrict n else m.restrict n := by
  simp [Memory.restrict, List.filter_cons]

theorem Memory.read_restrict (m : Memory) {n k : Nat} (hk : k < n) : (m.restrict n).read k = m.read k := by
  induction m with
  | nil => rfl
  | cons c r ih =>
    rw [Memory.restrict_cons, Memory.read, ← ih]
    split
    · rw [Memory.read]
    · rw [if_neg (by omega)]

theorem Memory.restrict_restrict (m : Memory) {i n : Nat} (h : i ≤ n) : (m.restrict n).restrict i = m.restrict i := by
  simp only [Memory.restrict, List.filter_filter]
  refine List.filter_congr fun c _ => ?_
  by_cases hc : c.1 < i
  · simp [hc, Nat.lt_of_lt_of_le hc h]
  · simp [hc]

theorem Memory.restrict_wf {m : Memory} (h : m.wf = true) (n : Nat) : (m.restrict n).wf = true := by
  induction m with
  | nil => rfl
  | cons c r ih =>
    obtain ⟨habove, hr⟩ := Memory.wf_cons.mp h
    rw [Memory.restrict_cons]
    split
    · exact Memory.wf_cons.mpr ⟨fun d hd => habove d (List.mem_of_mem_filter hd), ih hr⟩
    · exact ih hr

theorem Memory.restrict_of_above {m : Memory} {i n : Nat} (h : Memory.above i m) (hn : n ≤ i + 1) :
    m.restrict n = [] := by
  refine List.filter_eq_nil_iff.mpr fun c hc => ?_
  have := h c hc
  simp only [decide_eq_true_eq]
  omega

/-- What a write leaves up to its own element: the elements below it, and the byte written. -/
theorem Memory.restrict_write {m : Memory} (h : m.wf = true) (i : Nat) (v : Byte) :
    (m.write i v).restrict (i + 1) = m.restrict i ++ [(i, v)] := by
  induction m with
  | nil => simp [Memory.write, Memory.restrict]
  | cons c r ih =>
    obtain ⟨habove, hr⟩ := Memory.wf_cons.mp h
    rw [Memory.write]
    obtain hij | hij | hij := Nat.lt_trichotomy i c.1
    · have hall : Memory.above i r := fun d hd => Nat.lt_trans hij (habove d hd)
      simp [hij, Memory.restrict_cons, Memory.restrict_of_above hall, Nat.not_lt.mpr hij, Nat.le_of_lt hij]
    · have hall : Memory.above i r := hij ▸ habove
      simp [hij.symm, Memory.restrict_cons, Memory.restrict_of_above hall]
    · have hne : ¬i < c.1 ∧ ¬i = c.1 := by omega
      simp [hne, Memory.restrict_cons, hij, Nat.lt_succ_of_lt hij, ih hr]

/-- What a write leaves up to its own element is fixed by the elements below. -/
theorem Memory.restrict_write_restrict {m : Memory} (h : m.wf = true) {i n : Nat} (hi : i ≤ n) (v : Byte) :
    ((m.restrict n).write i v).restrict (i + 1) = (m.write i v).restrict (i + 1) := by
  rw [Memory.restrict_write (Memory.restrict_wf h n), Memory.restrict_write h, Memory.restrict_restrict m hi]

/-! ## The live part of a state -/

theorem live_eq (s : State) : live s =
    { s with
      wdtCnt := if s.wdtArmed then s.wdtCnt else 0
      rxlen := if s.rxs = .awaitBody then s.rxlen else 0
      rxbuf := s.rxbuf.restrict s.rxn
      txbuf := []
      table := if s.inited then s.table else []
      cfg := if s.inited then s.cfg else ⟨0, false⟩ } := rfl

@[simp] theorem live_live (s : State) : live (live s) = live s := by
  simp +contextual [live_eq, Memory.restrict_restrict]

theorem live_wdtCnt (h : s.wdtArmed = true) : (live s).wdtCnt = s.wdtCnt := if_pos h

theorem live_rxlen (h : s.rxs = .awaitBody) : (live s).rxlen = s.rxlen := if_pos h

theorem live_table (h : s.inited = true) : (live s).table = s.table := if_pos h

theorem live_cfg (h : s.inited = true) : (live s).cfg = s.cfg := if_pos h

/-! An update of live elements alone is the same update of the live part. -/

@[simp] theorem live_raise (e : Event) (s : State) : live (raise e s) = raise e (live s) := rfl
@[simp] theorem live_give (r : Result) (s : State) : live (give r s) = give r (live s) := rfl
@[simp] theorem live_txWrite (bs : List Byte) (s : State) : live (txWrite bs s) = txWrite bs (live s) := rfl
@[simp] theorem live_setTxbuf (a : Memory) (s : State) : live (setTxbuf a s) = live s := rfl

/-! An update of other elements leaves the same live part whatever they held before. -/

theorem live_expireWatchdog_live (s : State) : live (expireWatchdog (live s)) = live (expireWatchdog s) := by
  simp +contextual [live_eq, expireWatchdog, emitEvent, Memory.restrict_restrict]

theorem live_setUp_live (poly : Byte) (v : Bool) (s : State) :
    live (setUp poly v (live s)) = live (setUp poly v s) := by
  simp +contextual [live_eq, setUp, Memory.restrict_restrict]

theorem live_seekAgain_live (s : State) : live (seekAgain (live s)) = live (seekAgain s) := by
  simp +contextual [live_eq, seekAgain, Memory.restrict_restrict]

theorem live_tickWatchdog_live (s : State) : live (tickWatchdog (live s)) = live (tickWatchdog s) := by
  cases ha : s.wdtArmed with
  | false => rw [tickWatchdog_disarmed ha, tickWatchdog_disarmed (s := live s) ha, live_live]
  | true =>
    have hcnt := live_wdtCnt ha
    by_cases hc : s.wdtCnt = 1
    · rw [tickWatchdog_last ha hc, tickWatchdog_last (s := live s) ha (hcnt.trans hc), live_expireWatchdog_live]
    · rw [tickWatchdog_counts ha hc, tickWatchdog_counts (s := live s) ha (by rwa [hcnt])]
      simp +contextual [live_eq, ha, Memory.restrict_restrict]

theorem onValue_live {α : Type} {k : α → State → State} (hk : ∀ v s, k v (live s) = live (k v s))
    (r : Option α) (type : Byte) (n : Nat) (s : State) :
    onValue r type n k (live s) = live (onValue r type n k s) := by
  cases r with
  | none => rfl
  | some v => exact hk v s

/-- A dispatched frame goes to `CH`, `LS`, the watchdog and `EV`, and no codec reads the state. -/
theorem dispatch_live (P : Params) (dest type : Byte) (p : List Byte) (s : State) :
    dispatch P dest type p (live s) = live (dispatch P dest type p s) := by
  unfold dispatch
  split_ifs
  case neg => rfl
  all_goals exact onValue_live (fun _ _ => by rfl) ..

theorem judge_live (hi : s.inited = true) (P : Params) (dest type : Byte) (p : List Byte) (c r : Byte) :
    judge P dest type p c r (live s) = live (judge P dest type p c r s) := by
  simp only [judge, live_cfg hi, dispatch_live, apply_ite live, live_raise]

/-! ## Operations that read only the live part -/

/-- The operation comes to the same stop or to the same live part from a state as from its live part. -/
def ReadsOnlyLive (f : State → Out) (s : State) : Prop := SameLive (f (live s)) (f s)

theorem SameLive.refl (x : Out) : SameLive x x := by cases x <;> exact rfl

theorem SameLive.of_common {x y z : Out} (hx : SameLive z x) (hy : SameLive z y) : SameLive x y := by
  cases z with
  | next c => cases x <;> cases y <;> simp_all [SameLive]
  | fault f => cases x <;> cases y <;> simp_all [SameLive]
  | refused r => cases x <;> cases y <;> simp_all [SameLive]

/-- Two states with one live part are told apart by no operation that reads only the live part of both. -/
theorem ReadsOnlyLive.sameLive {f : State → Out} (hs : ReadsOnlyLive f s) (ht : ReadsOnlyLive f t)
    (h : live s = live t) : SameLive (f s) (f t) := by
  rw [ReadsOnlyLive, h] at hs
  exact hs.of_common ht

theorem ReadsOnlyLive.of_next {f : State → Out} {u v : State} (hlive : f (live s) = .next u) (hs : f s = .next v)
    (h : live u = live v) : ReadsOnlyLive f s := (congrArg₂ SameLive hlive hs).mpr h

theorem sameLive_withValue {α : Type} (x : Except Fault α) {j k : α → Out} (h : ∀ v, SameLive (j v) (k v)) :
    SameLive (withValue x j) (withValue x k) := by
  cases x with
  | ok v => exact h v
  | error f => exact rfl

theorem give_readsOnlyLive (r : Result) (s : State) : ReadsOnlyLive (fun s => .next (give r s)) s :=
  congrArg (give r) (live_live s)

theorem failWith_readsOnlyLive (e : Event) (code : ErrCode) (s : State) : ReadsOnlyLive (failWith e code) s :=
  congrArg (fun u => give (.error code) (raise e u)) (live_live s)

/-! ## The receive side -/

theorem EngineInv.live_holdSync_live (h : EngineInv s) (b : Byte) :
    live (holdSync b (live s)) = live (holdSync b s) := by
  have hbuf := Memory.restrict_write_restrict h.rxbufForm.1 (Nat.zero_le s.rxn) b
  simp +contextual [live_eq, holdSync, hbuf]

theorem EngineInv.live_holdLength_live (h : EngineInv s) (hs : s.rxs = .readLength) (b : Byte) :
    live (holdLength b (live s)) = live (holdLength b s) := by
  have hbuf := Memory.restrict_write_restrict h.rxbufForm.1 (h.lengthNext.mp hs).ge b
  simp +contextual [live_eq, holdLength, hbuf]

/-- The body byte follows the held ones, and `RXN` goes on over it. -/
theorem EngineInv.live_storeBody_live (h : EngineInv s) (b : Byte) :
    live (setRxn (s.rxn + 1) (setRxbuf ((live s).rxbuf.write s.rxn b) (live s))) =
      live (setRxn (s.rxn + 1) (setRxbuf (s.rxbuf.write s.rxn b) s)) := by
  have hbuf := Memory.restrict_write_restrict h.rxbufForm.1 (Nat.le_refl s.rxn) b
  simp +contextual [live_eq, setRxn, setRxbuf, hbuf]

/-- Back in `SEEK_SYNC` no element of `RXBUF` is held. -/
theorem live_seekAgain_setRxbuf_live (a a' : Memory) (s : State) :
    live (seekAgain (setRxbuf a (live s))) = live (seekAgain (setRxbuf a' s)) := by
  simp +contextual [live_eq, seekAgain, setRxbuf, Memory.restrict_zero]

/-- With the body byte stored, the live part holds every element up to it. -/
theorem EngineInv.read_storeBody_live (h : EngineInv s) (b : Byte) {k : Nat} (hk : k < s.rxn + 1) :
    ((live s).rxbuf.write s.rxn b).read k = (s.rxbuf.write s.rxn b).read k := by
  have hbuf := Memory.restrict_write_restrict h.rxbufForm.1 (Nat.le_refl s.rxn) b
  rw [← Memory.read_restrict (s.rxbuf.write s.rxn b) hk, ← hbuf, Memory.read_restrict _ hk]
  rfl

/-- The frame is read from `RXBUF` up to the byte just stored, with the `RXLEN`, `TABLE` and `CFG` of the live part, and
nothing in `RXBUF` is held after it (R104 to R106). -/
theorem EngineInv.rxStep_lastBody_readsOnlyLive (h : EngineInv s) (hi : s.inited = true) (hs : s.rxs = .awaitBody)
    (hlast : s.rxn + 1 = s.rxlen.toNat + 2) (b : Byte) : ReadsOnlyLive (rxStep Config.params b) s := by
  have hrxlen := live_rxlen hs
  obtain ⟨d, type, p, hlen, hp, hbuf⟩ := h.frame_whole hs hlast b
  have hn : s.rxn < 64 := by omega
  have hcrc := crcSum_table (h.tableBuilt hi) (type :: p)
  have hemit := emitFrame_of_frame (s := setRxbuf (s.rxbuf.write s.rxn b) s) hp hlen hbuf hcrc
  have hemitLive := emitFrame_of_frame (s := setRxbuf ((live s).rxbuf.write s.rxn b) (live s)) hp
    (by simpa [hrxlen] using hlen) (fun k hk => (h.read_storeBody_live b (by omega)).trans (hbuf k hk))
    (by simpa [live_table hi] using hcrc)
  refine .of_next ((rxStep_lastBody (s := live s) hs hn (by rwa [hrxlen])).trans hemitLive)
    ((rxStep_lastBody hs hn hlast).trans hemit) ?_
  rw [← judge_seekAgain, ← judge_seekAgain, ← judge_live (by exact hi), ← judge_live (by exact hi),
    live_seekAgain_setRxbuf_live]

theorem EngineInv.rxStep_readsOnlyLive (h : EngineInv s) (hi : s.inited = true) (b : Byte) :
    ReadsOnlyLive (rxStep Config.params b) s := by
  cases hs : s.rxs with
  | seekSync =>
    refine .of_next (rxStep_seekSync (s := live s) hs) (rxStep_seekSync hs) ?_
    unfold rxSeek
    split
    · exact h.live_holdSync_live b
    · exact congrArg (raise (.errDesyncSkip b)) (live_live s)
  | readLength =>
    refine .of_next (rxStep_readLength (s := live s) hs) (rxStep_readLength hs) ?_
    unfold rxLength
    split_ifs
    · exact h.live_holdLength_live hs b
    · exact (raise_inv (.errBadLength b) h).live_holdSync_live b
    · exact live_seekAgain_live (raise (.errBadLength b) s)
  | awaitBody =>
    have hbounds := h.bodyBounds hs
    by_cases hlast : s.rxn + 1 = s.rxlen.toNat + 2
    · exact h.rxStep_lastBody_readsOnlyLive hi hs hlast b
    · have hn : s.rxn < 64 := by omega
      exact .of_next (rxStep_storeBody (s := live s) hs hn (by rwa [live_rxlen hs])) (rxStep_storeBody hs hn hlast)
        (h.live_storeBody_live b)

theorem EngineInv.takeByte_readsOnlyLive (h : EngineInv s) : ReadsOnlyLive (takeByte Config.params) s := by
  by_cases hwait : s.inited = false ∨ s.src = []
  · exact .of_next (takeByte_waits (s := live s) hwait) (takeByte_waits hwait) (live_live s)
  · obtain ⟨hi, hsrc⟩ := not_or.mp hwait
    have hi : s.inited = true := by simpa using hi
    obtain ⟨b, rest, hsrc⟩ := List.exists_cons_of_ne_nil hsrc
    rw [ReadsOnlyLive, takeByte_cons hi hsrc, takeByte_cons (s := live s) hi hsrc]
    exact (setSource_inv rest h).rxStep_readsOnlyLive hi b

theorem EngineInv.offer_readsOnlyLive (h : EngineInv s) (bs : List Byte) :
    ReadsOnlyLive (offer Config.params bs) s := (keepAtSource_inv bs h).takeByte_readsOnlyLive

/-! ## The frames an engine builds -/

theorem sendFrame_of_long {P : Params} {op : BitVec 6} {d : Dest} {type : Byte} {p : List Byte}
    (hi : s.inited = true) (hp : 60 < p.length) :
    sendFrame P op d type p s = failWith (.errEncodingLimit p.length) .encodingLimit s :=
  (if_neg (by simp [hi])).trans (if_pos hp)

/-- A send reads `TABLE` once `INITED` = 1, and of `TXBUF` only what it has just written (R194). -/
theorem EngineInv.sendFrame_readsOnlyLive (h : EngineInv s) (op : BitVec 6) (d : Dest) (type : Byte) (p : List Byte) :
    ReadsOnlyLive (sendFrame Config.params op d type p) s := by
  rw [ReadsOnlyLive]
  cases hi : s.inited with
  | false =>
    rw [sendFrame_of_notInited _ _ _ _ hi, sendFrame_of_notInited (s := live s) _ _ _ _ hi]
    exact failWith_readsOnlyLive _ _ s
  | true =>
    by_cases hp : p.length ≤ 60
    · have hf := h.assembleFrame_eq hi (dval Config.params d) type p
      have hl : ([dval Config.params d, BitVec.ofNat 8 (p.length + 2), type] ++ p ++
          [crcBitwise s.cfg.poly (type :: p)]).length ≤ 64 := by
        simp only [List.length_append, List.length_cons, List.length_nil]
        omega
      exact ReadsOnlyLive.of_next (sendFrame_of_frame (s := live s) hi hp (by rwa [live_table hi]) hl)
        (sendFrame_of_frame hi hp hf hl) (by simp)
    · have hp : 60 < p.length := by omega
      rw [sendFrame_of_long hi hp, sendFrame_of_long (s := live s) hi hp]
      exact failWith_readsOnlyLive _ _ s

theorem EngineInv.sendPacked_readsOnlyLive (h : EngineInv s) (op : BitVec 6) (d : Dest) (type : Byte)
    (p : Option (List Byte)) : ReadsOnlyLive (sendPacked Config.params op d type p) s := by
  rw [ReadsOnlyLive]
  cases p with
  | some p =>
    rw [sendPacked_some, sendPacked_some]
    exact h.sendFrame_readsOnlyLive op d type p
  | none =>
    cases hi : s.inited with
    | false =>
      rw [sendPacked_of_notInited _ _ _ _ hi, sendPacked_of_notInited (s := live s) _ _ _ _ hi]
      exact failWith_readsOnlyLive _ _ s
    | true =>
      rw [sendPacked_none _ _ _ _ hi, sendPacked_none (s := live s) _ _ _ _ hi]
      exact failWith_readsOnlyLive _ _ s

/-- `FRAME_ENCODE` stops before `INIT` without reading `TABLE` (R110). -/
theorem execFrameEncode_readsOnlyLive (dest type : Byte) (p : List Byte) (s : State) :
    ReadsOnlyLive (execFrameEncode dest type p) s := by
  rw [ReadsOnlyLive]
  cases hi : s.inited with
  | false =>
    have hstop : ∀ u : State, u.inited = false → execFrameEncode dest type p u = .fault .requiresInit :=
      fun _ hu => if_pos hu
    rw [hstop s hi, hstop (live s) hi]
    exact .refl _
  | true =>
    have hi' : (live s).inited = true := hi
    simp only [execFrameEncode, hi, hi', live_table hi, Bool.true_eq_false, if_false]
    split
    · exact failWith_readsOnlyLive _ _ s
    · exact sameLive_withValue _ fun f => give_readsOnlyLive (.bytes f) s

theorem execInit_readsOnlyLive (poly : Byte) (v : Bool) (s : State) : ReadsOnlyLive (exec (.init poly v)) s := by
  rw [ReadsOnlyLive]
  cases hi : s.inited with
  | false =>
    rw [exec_init_of_notInited hi, exec_init_of_notInited (s := live s) hi]
    exact congrArg (give .ok) (live_setUp_live poly v s)
  | true =>
    rw [exec_init_of_inited hi, exec_init_of_inited (s := live s) hi]
    exact give_readsOnlyLive .ok s

/-! ## Every operation and every step -/

theorem EngineInv.exec_readsOnlyLive (h : EngineInv s) (i : Instr) : ReadsOnlyLive (exec i) s := by
  cases i
  case gps | battery | rpm | temp | link | channels | generic | rxByte => exact h.offer_readsOnlyLive _
  case rxChunk bytes =>
    cases bytes with
    | nil => exact live_live s
    | cons b bs => exact h.offer_readsOnlyLive (b :: bs)
  case init poly v => exact execInit_readsOnlyLive poly v s
  case sendBattery | sendGps => exact h.sendFrame_readsOnlyLive ..
  case sendRpm | sendTemp => exact h.sendPacked_readsOnlyLive ..
  case reservedOp => exact failWith_readsOnlyLive _ _ s
  case crcSum => exact sameLive_withValue _ fun c => give_readsOnlyLive (.u8 c) s
  case frameEncode dest type p => exact execFrameEncode_readsOnlyLive dest type p s
  case dispatch dest type p =>
    show live (dispatch _ dest type p (live s)) = live (dispatch _ dest type p s)
    rw [dispatch_live, live_live]
  case stUpdateCh v => exact congrArg (updateChannels v) (live_live s)
  case stUpdateLs ls => exact congrArg (updateLinkStats ls) (live_live s)
  case fsFeed => exact congrArg (feedWatchdog Config.params) (live_live s)
  case fsExpire => exact live_expireWatchdog_live s
  case tick => exact live_tickWatchdog_live s
  all_goals exact congrArg (give _) (live_live s)

theorem EngineInv.runEntry_readsOnlyLive (h : EngineInv s) (e : Entry) : ReadsOnlyLive (runEntry e) s := by
  cases e with
  | reset => exact .refl (.next (hardwareReset s))
  | receive => exact h.takeByte_readsOnlyLive
  | request port bytes =>
    rw [ReadsOnlyLive]
    cases hdec : decode Config.params port bytes with
    | ok i =>
      rw [runEntry_of_decoded hdec, runEntry_of_decoded hdec]
      exact h.exec_readsOnlyLive i
    | error e =>
      rw [runEntry_of_undecodable hdec, runEntry_of_undecodable hdec]
      exact .refl _

theorem EngineInv.step_readsOnlyLive (h : EngineInv s) : ReadsOnlyLive step s := by
  rw [ReadsOnlyLive]
  cases hin : s.inbox with
  | nil =>
    rw [step_of_nil hin, step_of_nil (s := live s) hin]
    exact h.takeByte_readsOnlyLive
  | cons e rest =>
    rw [step_of_cons hin, step_of_cons (s := live s) hin]
    exact (setInbox_inv rest h).runEntry_readsOnlyLive e

/-- Settles O10: a step reads only the live part, which the two states share. -/
theorem unspecifiedElementsAreNeverRead : Obligations.UnspecifiedElementsAreNeverRead :=
  fun _ _ hs ht hlive => hs.step_readsOnlyLive.sameLive ht.step_readsOnlyLive hlive

end Sys2Proof.Machine
